-- ==== Sys2Proof/Word.lean ====
section
/-! DEFINITION. The word types of the block (R7). The widths that R5 names, of the counters and of the outcome port, are
parameters. -/

namespace Sys2Proof

/-- A byte of the stream, the buffer or the CRC register: 8 bits, bit 7 the most significant (R7). -/
abbrev Byte := BitVec 8

/-- The value of a statistics counter, below 2 to the power CTR_W (R5, R15, R16, R20, R22). -/
abbrev Counter := Nat

end Sys2Proof
end

