-- ==== Sys2Proof/Config.lean ====
section
/-! DEFINITION. The parameters of R5, each an argument of the model: a record that the state carries (log 4), with the
relations of R6 and the values of R5. The two OPEN ones have constants without a body for their values (log 4). -/

namespace Sys2Proof

/-- EOF_SETS_EXIT is OPEN (R5, D15): a free value, nothing can be proved of it (log 4). -/
opaque Config.eofSetsExit : Bool

/-- SHUTDOWN_LEN is OPEN but for its sign (R5, D19): its magnitude less 1, a free value (log 4). -/
opaque Config.shutdownMagnitude : Nat

/-- CRC_REFLECT (R5, R70). What a value other than `none` means is PRESUMED (log 18). -/
inductive CrcReflect where
  /-- No reflection: the source's value. -/
  | none
  /-- The bits of each input byte and of the result are reversed. -/
  | reversed
  deriving DecidableEq, Repr

/-- The two values of SCAN_START_CRC (R5, D8). -/
inductive CrcScanStart where
  /-- `L + 3`, right past the invalid window: the default. -/
  | pastWindow
  /-- 1: the alternative. -/
  | one
  deriving DecidableEq, Repr

/-- The two values of ATOMICITY: what runs under one hold of the lock (R5, R38, D13). -/
inductive Atomicity where
  /-- One APPLY: the default. -/
  | iteration
  /-- A whole DRAIN: the alternative. -/
  | drain
  deriving DecidableEq, Repr

/-- The parameters of R5, the unaudited literals among them (spec/93_implementation_defined.md section 2). They are
fixed at construction and are no state of the block (R29); the machine carries them because every claim has to hold for
each admissible choice (log 4). -/
structure Params where
  /-- HEAD, the frame-start sentinel (R52). -/
  head : Byte
  /-- POLY, the low 8 bits of the CRC generator (R70). -/
  poly : Byte
  /-- CRC_INIT (R70). -/
  crcInit : Byte
  /-- CRC_XOROUT (R70). -/
  crcXorOut : Byte
  /-- CRC_REFLECT (R70). -/
  crcReflect : CrcReflect
  /-- L_MIN, the least legal LEN value. -/
  lMin : Nat
  /-- L_MAX, the greatest legal LEN value. -/
  lMax : Nat
  /-- FRAME_OVERHEAD, the size of a frame less `L`. -/
  frameOverhead : Nat
  /-- MIN_PROBE, the minimum viable probe size. -/
  minProbe : Nat
  /-- BUF_CAP, the bytes of the accumulation buffer (R12). -/
  bufCap : Nat
  /-- MSG_CAP, the message container's capacity (D18). -/
  msgCap : Nat
  /-- CTR_W, the width of the counters in bits (R22, D10). -/
  ctrW : Nat
  /-- OUTCOME_W, the width of the outcome port in bits (R60, D11). -/
  outcomeW : Nat
  /-- SCAN_START_RESYNC, the first index scanned when the resync flag was set (R101, D5). -/
  scanStartResync : Nat
  /-- SCAN_START_HEAD, the first index scanned after a HEAD mismatch (R101, D6). -/
  scanStartHead : Nat
  /-- SCAN_START_LEN, the first index scanned after a length-range failure (R101, D7). -/
  scanStartLen : Nat
  /-- SCAN_START_CRC, the first index scanned after a CRC mismatch (R101, D8). -/
  scanStartCrc : CrcScanStart
  /-- ATOMICITY (R38, D13). -/
  atomicity : Atomicity
  /-- EOF_SETS_EXIT (R137, R160, D15). -/
  eofSetsExit : Bool
  /-- SHUTDOWN_LEN (R63, D19). -/
  shutdownLen : Int
  deriving DecidableEq, Repr

/-- FRAME_MAX, the derived size of the longest frame (R5). -/
def Params.frameMax (p : Params) : Nat := p.lMax + p.frameOverhead

/-- PAYLOAD_MAX, the derived size of the longest payload (R5). -/
def Params.payloadMax (p : Params) : Nat := p.lMax - 1

/-- The relations every rule relies on (R6, spec/93_implementation_defined.md section 2): the length range is one
byte's and leaves room for PAYLOAD[LEN-1] (R50); HEAD, ADDR and CRC8 stand outside the span; a scan starts at 1 or
later, after a HEAD mismatch anywhere; the longest frame fits the buffer, the longest payload the message container;
the shutdown sentinel's length is negative (R63); and the outcomes fit their port (R58, D11). -/
def Params.wf (p : Params) : Bool :=
  decide (1 ≤ p.lMin) && decide (p.lMin ≤ p.lMax) && decide (p.lMax ≤ 255) && decide (p.frameOverhead = 3) &&
    decide (p.minProbe = p.lMin + p.frameOverhead) && decide (p.frameMax ≤ p.bufCap) &&
    decide (p.payloadMax ≤ p.msgCap) && decide (1 ≤ p.scanStartResync) && decide (1 ≤ p.scanStartLen) &&
    decide (p.shutdownLen < 0) && decide (p.frameMax < 2 ^ (p.outcomeW - 1)) &&
    decide (p.bufCap ≤ 2 ^ (p.outcomeW - 1))

/-- The values of R5; the OPEN ones are the free values above. -/
def Config.params : Params where
  head := 0xF7
  poly := 0x07
  crcInit := 0x00
  crcXorOut := 0x00
  crcReflect := .none
  lMin := 3
  lMax := 255
  frameOverhead := 3
  minProbe := 6
  bufCap := 4096
  msgCap := 512
  ctrW := 32
  outcomeW := 16
  scanStartResync := 1
  scanStartHead := 1
  scanStartLen := 3
  scanStartCrc := .pastWindow
  atomicity := .iteration
  eofSetsExit := Config.eofSetsExit
  shutdownLen := -1 - (Config.shutdownMagnitude : Int)

end Sys2Proof
end

