-- ==== Sys2Proof/Syntax.lean ====
section
/-! DEFINITION. The syntax: one constructor of `Instr` per row of spec/opcode_table.json, the operand types, and the
packets in which an invocation or a transfer reaches the block (R64, log 1, log 3). -/

namespace Sys2Proof

/-- The protocol-level causes in the order of the tests of CHECK (R156). -/
inductive SyncCause where
  | resync
  | head
  | len
  | crc
  deriving DecidableEq, Repr

/-- What one non-blocking read answered (R136). -/
inductive ReadResult where
  | data (s : List Byte)
  | wouldBlock
  | eof
  | err
  deriving DecidableEq, Repr

/-- The descriptor-kind tag (R29, R142, R180). -/
inductive DescriptorKind where
  | liveBus
  | fileBacked
  deriving DecidableEq, Repr

/-- The environment's choice of how a construction ends (R161, U14). -/
inductive Construction where
  | succeeds
  | fails
  deriving DecidableEq, Repr

/-- One constructor per row of the opcode table. Operands that the block always takes from its own state
(`resync`, `buf`, `fill`: R115) are no fields here. -/
inductive Instr where
  /-- FRAME: the bytes of one candidate frame on the wire (R50). -/
  | frame (addr len : Byte) (payload : List Byte) (crc : Byte)
  /-- OUTCOME.NeedMoreData (R58). -/
  | outcomeNeedMoreData
  /-- OUTCOME.FrameAccepted (R58). -/
  | outcomeFrameAccepted (n : Nat)
  /-- OUTCOME.DiscardBytes (R58). -/
  | outcomeDiscardBytes (n : Nat)
  /-- STATS: the status port, whose index 0 is an input from the transmit path (R20, R62). -/
  | stats (bytesWrite : Counter)
  /-- MESSAGE: the result of a PULL (R63). -/
  | message
  /-- CRC8.BIT (R71). -/
  | crc8Bit (r : Byte)
  /-- CRC8.BYTE (R72). -/
  | crc8Byte (r b : Byte)
  /-- CRC8.BLOCK (R73). -/
  | crc8Block (s : List Byte)
  /-- CRC8.VERIFY (R75). -/
  | crc8Verify (L : Nat)
  /-- PARSE.PROBE (R85). -/
  | parseProbe
  /-- PARSE.HEAD (R86). -/
  | parseHead
  /-- PARSE.LEN (R87). -/
  | parseLen
  /-- PARSE.BOUNDS (R88). -/
  | parseBounds (L : Nat)
  /-- PARSE.FIELDS (R89). -/
  | parseFields (L : Nat)
  /-- SYNC.GATE (R100). -/
  | syncGate
  /-- SYNC.SCAN (R102). -/
  | syncScan (start : Nat)
  /-- SYNC.RESOLVE (R104). -/
  | syncResolve (start : Nat) (cause : SyncCause)
  /-- CHECK (R116). -/
  | check
  /-- RX_APPEND (R131). -/
  | rxAppend (s : List Byte)
  /-- CONSUME (R132). -/
  | consume (m : Nat)
  /-- DELIVER (R133). -/
  | deliver (L : Nat)
  /-- APPLY (R134). -/
  | apply
  /-- DRAIN (R135). -/
  | drain
  /-- RX_EVENT (R136). -/
  | rxEvent (r : ReadResult)
  /-- PULL (R137). -/
  | pull
  /-- GET_STATS (R138). -/
  | getStats
  /-- EXIT_REQ (R169). -/
  | exitReq
  /-- JOIN (R169). -/
  | join
  /-- FREE (R169). -/
  | free
  /-- RESET (R180). -/
  | reset (descriptor : BitVec 32) (kind : DescriptorKind) (built : Construction)
  deriving DecidableEq, Repr

/-- Where an encoded instruction stands: one constructor per format of R50, R60, R62, R63 and R64. A packet holds
exactly one instruction. -/
inductive Packet where
  /-- Bytes on the wire, the first to arrive first (R50). -/
  | wire (bytes : List Byte)
  /-- The bits of the outcome port as an unsigned number, below 2 to the power of its width OUTCOME_W (R60). -/
  | outcome (word : Nat)
  /-- The status port: `bytes_write`, `bytes_read`, `bytes_invalid` in this order (R62). -/
  | status (w r i : Counter)
  /-- The hand-over of a PULL's result, a record without a bit-level layout (R63). -/
  | message
  /-- An invocation: the operation's 5-bit number (R64) and its operand bytes (log 1). -/
  | op (number : BitVec 5) (operands : List Byte)
  deriving DecidableEq, Repr

/-- Why a packet is no instruction. -/
inductive DecodeError where
  /-- The first byte on the wire is not HEAD (R52). Safe: nothing runs. -/
  | notHead
  /-- The wire packet ends before the frame does (R57). Safe. -/
  | frameCut
  /-- The wire packet goes on after the frame's CRC8 byte (R57). Safe. -/
  | frameSurplus
  /-- An index 0 of the status port that is wider than a counter (R5, R62). Safe. -/
  | unusedStatus
  /-- An outcome word with the sign bit clear and a bit above 8 set, or wider than the port: no row of the table
  (R60). Safe. -/
  | unusedOutcome
  /-- An operation number of 25 to 31, which R64 does not list. Safe. -/
  | unusedNumber
  /-- Too few or too many operand bytes (log 1). Safe. -/
  | operandBytes
  /-- An operand byte that names no cause, read result, kind or construction (log 1). Safe. -/
  | operandValue
  deriving DecidableEq, Repr

end Sys2Proof
end

