-- ==== Sys2Proof/Machine/State.lean ====
section
/-! DEFINITION. The state of the block (R10 and what INVENTORY.md lists under "State"), the reasons a step stops, and
the state after reset (R27, R182). -/

namespace Sys2Proof.Machine

/-- The accumulation buffer as listed bytes, addresses strictly rising (R12). An unlisted byte has no value (R31,
log 6). -/
abbrev Memory := List Host.Cell

/-- The message record of the pending-incoming slot (R17). -/
structure Message where
  addr : Byte
  len : Byte
  payload : List Byte
  deriving DecidableEq, Repr

/-- The fields of a window (R89). -/
structure FrameFields where
  head : Byte
  addr : Byte
  len : Byte
  payload : List Byte
  crc : Byte
  deriving DecidableEq, Repr

/-- The lifecycle states (R18). -/
inductive RunState where
  | running
  | exitRequested
  | joined
  | freed
  deriving DecidableEq, Repr

/-- The three outcomes of CHECK (R58). -/
inductive CheckOutcome where
  | needMoreData
  | frameAccepted (n : Nat)
  | discardBytes (n : Nat)
  deriving DecidableEq, Repr

/-- What an operation returned: the column "result" of R64 (log 15). -/
inductive Result where
  /-- The operation returns nothing. -/
  | none
  /-- A CRC register value or a CRC (R71 to R73). -/
  | byte (b : Byte)
  /-- The compare of CRC8.VERIFY (R75). -/
  | boolean (b : Bool)
  /-- A test passed (R85, R86, R88, R100). -/
  | pass
  /-- PARSE.LEN passed with this `L` (R87). -/
  | length (L : Nat)
  /-- A test raised SyncError with this cause and scan start (R8). -/
  | syncError (cause : SyncCause) (start : Nat)
  /-- The extracted fields (R89). -/
  | fields (f : FrameFields)
  /-- SYNC.SCAN found HEAD at this index (R102). -/
  | found (k : Nat)
  /-- SYNC.SCAN found no HEAD (R102). -/
  | notFound
  /-- An outcome of CHECK, or of a test that asks for more data (R58). -/
  | outcome (o : CheckOutcome)
  /-- PULL's message (R137). -/
  | message (m : Message)
  /-- PULL's shutdown sentinel (R137). -/
  | shutdown
  /-- The caller of PULL is held (R42). -/
  | held
  /-- The statistics triple (R138). -/
  | stats (bytesWrite bytesRead bytesInvalid : Counter)
  /-- RESET made an engine (R180). -/
  | engine
  /-- RESET failed, there is no engine (R161). -/
  | noEngine
  deriving DecidableEq, Repr

/-- Why the machine stops with a fault. -/
inductive Fault where
  /-- A byte of `buf` that has no defined value was read (R31). Raised by every operation that reads `buf`. Safe:
  the spec has no rule there. -/
  | undefinedByte
  /-- RX_APPEND or a read with no byte, or more bytes than the room left (R131, R136). Safe: outside the operand's
  range. -/
  | appendSize
  /-- CONSUME or a discard of 0 bytes or of more than `fill` (R132). Safe: outside the operand's range. -/
  | consumeRange
  /-- `L` outside L_MIN .. L_MAX (R75, R88, R89). Safe: outside the operand's range. -/
  | lengthRange
  /-- SYNC.RESOLVE with fewer than MIN_PROBE bytes, or with a scan start of 0 that is not SCAN_START_HEAD after a HEAD
  mismatch (R6, R101, R104). Safe: outside the operands' range. -/
  | resolveRange
  /-- DELIVER without the accepted frame at the front of the buffer (R133). Safe: outside the operation's premise. -/
  | noAcceptedFrame
  /-- A row OUTCOME.* whose outcome is not the one that CHECK answers (R118, R119, log 3). Safe: that outcome is not on
  the port. -/
  | outcomeNotAnswered
  /-- A message filled beyond `MSG_CAP` (R162, U1). Safe: the spec's own treatment; unreachable when `MSG_CAP ≥
  PAYLOAD_MAX` (R5: 254). -/
  | messageOverflow
  /-- An RXE operation after a transport-fatal event: it has no step (R160, U9). Safe: the spec's `stuck`. -/
  | receiverHalted
  /-- An RXE operation in `Joined`: it has no step (R130, R169). Safe: the spec's "none". -/
  | receiverReturned
  deriving DecidableEq, Repr

/-- Why an invocation is refused. -/
inductive Refusal where
  /-- The instruction has no meaning yet. Safe: nothing runs. -/
  | notModelled (mnemonic : String)
  /-- The packet is no instruction. Raised by step. Safe: nothing runs. -/
  | undecodable (e : DecodeError)
  /-- There is no engine: the construction failed (R161, U14). Safe: the spec's `refuse`. -/
  | engineAbsent
  /-- The engine is freed (R130, R169, U8). Safe: the spec's `refuse`. -/
  | engineFreed
  /-- A lifecycle operation in a state that does not enable it (R169, U8). Safe: the spec's `refuse`. -/
  | lifecycleOrder
  /-- JOIN while RXE is inside an operation (R169). Safe: not enabled. -/
  | receiverBusy
  deriving DecidableEq, Repr

/-- The state: the spec's elements (R10), what else it gives an operation to write, the parameters (log 4), and the
model's own fields `pending`, `result`, `cause`, `wakes` (log 2, log 15). -/
structure State where
  /-- The parameters of R5; no operation writes them. -/
  cfg : Params
  /-- Whether an engine exists (R161, R182). -/
  constructed : Bool
  /-- The serial descriptor handle (R29, R180). -/
  descriptor : BitVec 32
  /-- The descriptor-kind tag (R29, R180). -/
  kind : DescriptorKind
  /-- The accumulation buffer (R12). -/
  buf : Memory
  /-- The number of valid bytes (R13). -/
  fill : Nat
  /-- The resync flag (R14). -/
  resync : Bool
  /-- Bytes consumed as accepted frames (R15). -/
  bytesRead : Counter
  /-- Bytes consumed as malformed (R16). -/
  bytesInvalid : Counter
  /-- The transmit path's counter, an input (R20). -/
  bytesWrite : Counter
  /-- Whether the slot holds a message not yet taken (R17). -/
  msgValid : Bool
  /-- The slot (R17). -/
  msg : Message
  /-- The lifecycle state (R18). -/
  runState : RunState
  /-- A transport-fatal event ended the background loop (R19). -/
  rxHalted : Bool
  /-- RXE is between two APPLY steps of one DRAIN (R135, log 9). -/
  draining : Bool
  /-- How many callers are held in PULL (R42, R174, log 10). -/
  held : Nat
  /-- The invocations to come, oldest first: one interleaving (R39, R65, log 2). -/
  pending : List Packet
  /-- What the last operation returned (R64, log 15). -/
  result : Result
  /-- The ghost output of the last operation that ran CHECK (R122, log 15). -/
  cause : Option SyncCause
  /-- How often the last operation raised the wake-up event (R164, log 15). -/
  wakes : Nat
  deriving DecidableEq, Repr

/-- The slot's content where the spec leaves it unspecified at reset (R27, log 5). -/
def Message.blank : Message where
  addr := 0
  len := 0
  payload := []

/-- A freshly constructed engine (R27, R180) with the given parameters, operands and queue. -/
def State.fresh (cfg : Params) (descriptor : BitVec 32) (kind : DescriptorKind) (pending : List Packet) : State where
  cfg := cfg
  constructed := true
  descriptor := descriptor
  kind := kind
  buf := []
  fill := 0
  resync := false
  bytesRead := 0
  bytesInvalid := 0
  bytesWrite := 0
  msgValid := false
  msg := Message.blank
  runState := .running
  rxHalted := false
  draining := false
  held := 0
  pending := pending
  result := .none
  cause := none
  wakes := 0

/-- The machine right after reset (R27): the parameters of R5, nothing invoked yet (log 2, log 5). -/
def State.reset : State :=
  State.fresh Config.params 0 .liveBus []

end Sys2Proof.Machine
end

