-- ==== Sys2Proof/Machine/Flags.lean ====
section
/-! DEFINITION. The flags and conditions: which operations have a step in which state (R130, R169), the shutdown
condition of PULL (R137), the counters' arithmetic (R22). -/

namespace Sys2Proof.Machine

/-- `ctr <- (ctr + n) mod 2^CTR_W` (R5, R22). -/
def counterAdd (cfg : Params) (c : Counter) (n : Nat) : Counter :=
  (c + n) % 2 ^ cfg.ctrW

/-- The shutdown condition of PULL (R137). -/
def shuttingDown (s : State) : Bool :=
  decide (s.runState = .exitRequested) || decide (s.runState = .joined) || (s.rxHalted && s.cfg.eofSetsExit)

/-- Where operations of the engine may run at all: an engine exists and is not freed (R130, R161, R169). -/
def onEngine (s : State) (k : Host.Outcome State Fault Refusal) : Host.Outcome State Fault Refusal :=
  if s.constructed = false then .refused .engineAbsent
  else if s.runState = .freed then .refused .engineFreed
  else k

/-- Where operations of RXE have a step: in Running and ExitRequested with `rx_halted = 0` (R130, R160, R169). -/
def onReceiver (s : State) (k : Host.Outcome State Fault Refusal) : Host.Outcome State Fault Refusal :=
  onEngine s
    (if s.runState = .joined then .fault .receiverReturned
     else if s.rxHalted then .fault .receiverHalted
     else k)

/-- An engine that exists and is not freed. -/
def engineLive (s : State) : Bool :=
  s.constructed && decide (s.runState ≠ .freed)

/-- The condition of R130 under which RXE has a step. -/
def receiverLive (s : State) : Bool :=
  s.constructed && (decide (s.runState = .running) || decide (s.runState = .exitRequested)) && !s.rxHalted

end Sys2Proof.Machine
end

