-- ==== Sys2Proof/Machine/CrcUnit.lean ====
section
/-! DEFINITION. Unit CRC: the pure functions of R71 to R73. The running register is no state (R23). -/

namespace Sys2Proof.Machine

/-- One shift/conditional-XOR step: bit 7 before the shift decides, the bit shifted out is dropped (R71, log 16). -/
def crcBit (poly r : Byte) : Byte :=
  if r.getLsbD 7 then (r <<< 1) ^^^ poly else r <<< 1

/-- CRC_REFLECT applied to an input byte or to the result: nothing, by the source's value (R70, log 18). -/
def crcReflected (cfg : Params) (b : Byte) : Byte :=
  match cfg.crcReflect with
  | .none => b
  | .reversed => b.reverse

/-- Absorb one input byte: XOR it in, then eight steps (R72). -/
def crcByte (cfg : Params) (r b : Byte) : Byte :=
  (crcBit cfg.poly)^[8] (r ^^^ crcReflected cfg b)

/-- The running register after a byte sequence, in ascending index order from CRC_INIT (R73). -/
def crcRegister (cfg : Params) (s : List Byte) : Byte :=
  s.foldl (crcByte cfg) cfg.crcInit

/-- The CRC-8 of a byte sequence: the register, then CRC_XOROUT (R70, R73). -/
def crc8 (cfg : Params) (s : List Byte) : Byte :=
  crcReflected cfg (crcRegister cfg s) ^^^ cfg.crcXorOut

end Sys2Proof.Machine
end

