-- ==== Sys2Proof/WellFormed.lean ====
section
/-! DEFINITION. Which terms of `Instr` are well formed: the operand ranges the rules state, a legal frame's layout and
CRC8 byte, and the widths of the model's own operand layout (log 1). -/

namespace Sys2Proof

/-- The range of the operand `L` (R75, R88, R89, R133). -/
def lengthOk (cfg : Params) (L : Nat) : Bool :=
  decide (cfg.lMin ≤ L) && decide (L ≤ cfg.lMax)

/-- A read or an append brings at least one byte and at most the whole buffer (R131, R136). -/
def dataOk (cfg : Params) (s : List Byte) : Bool :=
  decide (1 ≤ s.length) && decide (s.length ≤ cfg.bufCap)

/-- A legal frame: LEN in range, `LEN - 1` payload bytes, CRC8 the CRC of LEN and PAYLOAD (R50, R55). -/
def frameOk (cfg : Params) (len : Byte) (payload : List Byte) (crc : Byte) : Bool :=
  lengthOk cfg len.toNat && decide (payload.length = len.toNat - 1) && decide (crc = Machine.crc8 cfg (len :: payload))

/-- Well-formedness of an instruction, under the parameters of R5. -/
def WellFormed (cfg : Params) : Instr → Bool
  | .frame _ len payload crc => frameOk cfg len payload crc
  | .outcomeFrameAccepted n => decide (cfg.minProbe ≤ n) && decide (n ≤ cfg.frameMax)
  | .outcomeDiscardBytes n => decide (1 ≤ n) && decide (n ≤ cfg.bufCap)
  | .crc8Verify L => lengthOk cfg L
  | .parseBounds L => lengthOk cfg L
  | .parseFields L => lengthOk cfg L
  | .syncScan start => decide (start < 2 ^ 16)
  | .syncResolve start cause =>
    (decide (1 ≤ start) || (decide (cause = .head) && decide (start = cfg.scanStartHead))) && decide (start < 2 ^ 16)
  | .rxAppend s => dataOk cfg s
  | .consume m => decide (1 ≤ m) && decide (m ≤ cfg.bufCap) && decide (m < 2 ^ 16)
  | .deliver L => lengthOk cfg L
  | .rxEvent (.data s) => dataOk cfg s
  | .rxEvent .wouldBlock => true
  | .rxEvent .eof => true
  | .rxEvent .err => true
  | .outcomeNeedMoreData => true
  | .stats w => decide (w < 2 ^ cfg.ctrW)
  | .message => true
  | .crc8Bit _ => true
  | .crc8Byte _ _ => true
  | .crc8Block _ => true
  | .parseProbe => true
  | .parseHead => true
  | .parseLen => true
  | .syncGate => true
  | .check => true
  | .apply => true
  | .drain => true
  | .pull => true
  | .getStats => true
  | .exitReq => true
  | .join => true
  | .free => true
  | .reset _ _ _ => true

end Sys2Proof
end

