-- ==== Sys2Proof/Machine/Operands.lean ====
section
/-! DEFINITION. Reading the buffer, the operands that the operations take from it, the tests of PARSE and SYNC, the
scan, and the numeric and display forms of what the block gives out (R36, R54, R55, R60, R62, R63, R85 to R102). -/

namespace Sys2Proof.Machine

/-! ## Reading the buffer (R8, R31) -/

/-- `buf[i]`, if it has a value. -/
def Memory.read : Memory → Nat → Option Byte
  | [], _ => none
  | (a, b) :: m, i => if a = i then some b else Memory.read m i

/-- `MemRead(addr, n)`, if every byte has a value (R8). -/
def Memory.readN (m : Memory) (addr : Nat) : Nat → Option (List Byte)
  | 0 => some []
  | n + 1 =>
    match m.read addr, Memory.readN m (addr + 1) n with
    | some b, some bs => some (b :: bs)
    | _, _ => none

/-- The canonical form: addresses strictly rising and inside the buffer (R12). -/
def Memory.wf (bufCap : Nat) (m : Memory) : Bool :=
  decide ((m.map Prod.fst).Pairwise (· < ·)) && m.all (fun c => decide (c.1 < bufCap))

/-! ## The tests (R85 to R88, R100) -/

/-- How a test of CHECK ends. -/
inductive Test (α : Type) where
  /-- Pass, with what the test yields. -/
  | pass (a : α)
  /-- The outcome NeedMoreData. -/
  | wait
  /-- SyncError(cause, start). -/
  | fail (cause : SyncCause) (start : Nat)
  deriving DecidableEq, Repr

/-- PARSE.PROBE(n) (R85). -/
def probeTest (cfg : Params) (n : Nat) : Test Unit :=
  if n < cfg.minProbe then .wait else .pass ()

/-- SYNC.GATE(resync) (R100). -/
def gateTest (cfg : Params) (resync : Bool) : Test Unit :=
  if resync then .fail .resync cfg.scanStartResync else .pass ()

/-- PARSE.HEAD on `buf[0]` (R86). -/
def headTest (cfg : Params) (b0 : Byte) : Test Unit :=
  if b0 ≠ cfg.head then .fail .head cfg.scanStartHead else .pass ()

/-- PARSE.LEN on `buf[2]` (R54, R87). -/
def lenTest (cfg : Params) (b2 : Byte) : Test Nat :=
  if b2.toNat < cfg.lMin ∨ b2.toNat > cfg.lMax then .fail .len cfg.scanStartLen else .pass b2.toNat

/-- PARSE.BOUNDS(L, n), in integers (R56, R88). -/
def boundsTest (cfg : Params) (L n : Nat) : Test Unit :=
  if n < L + cfg.frameOverhead then .wait else .pass ()

/-- CRC8.VERIFY(buf, L) (R74, R75). -/
def crcVerify (cfg : Params) (m : Memory) (L : Nat) : Option Bool :=
  match m.readN 2 L, m.read (L + 2) with
  | some span, some c => some (decide (crc8 cfg span = c))
  | _, _ => none

/-- SCAN_START_CRC for a frame of length byte `L` (R101). -/
def crcScanStart (cfg : Params) (L : Nat) : Nat :=
  match cfg.scanStartCrc with
  | .pastWindow => L + cfg.frameOverhead
  | .one => 1

/-! ## The scan (R102, R103) -/

/-- What SYNC.SCAN answers. -/
inductive ScanResult where
  | found (k : Nat)
  | notFound
  deriving DecidableEq, Repr

/-- The first HEAD among `count` bytes from index `k`; none where a byte has no value. -/
def scanFrom (head : Byte) (m : Memory) (k : Nat) : Nat → Option ScanResult
  | 0 => some .notFound
  | count + 1 =>
    match m.read k with
    | none => none
    | some b => if b = head then some (.found k) else scanFrom head m (k + 1) count

/-- SYNC.SCAN(buf, start, n): indexes `start` to `n - 1`, ascending (R102). -/
def scan (head : Byte) (m : Memory) (start n : Nat) : Option ScanResult :=
  scanFrom head m start (n - start)

/-- Whether the error path may scan from `start`: from 1 on, or from SCAN_START_HEAD where the byte at index 0 is known
not to be HEAD (R6, R101, R105). -/
def scanStartOk (cfg : Params) (m : Memory) (start : Nat) (cause : SyncCause) : Bool :=
  decide (1 ≤ start) ||
    (decide (cause = .head) && decide (start = cfg.scanStartHead) && decide (m.read 0 ≠ some cfg.head))

/-! ## The fields of a window (R36, R89) -/

/-- PARSE.FIELDS(buf, L) (R89). -/
def readFields (m : Memory) (L : Nat) : Option FrameFields :=
  match m.read 0, m.read 1, m.read 2, m.readN 3 (L - 1), m.read (L + 2) with
  | some h, some a, some l, some p, some c => some { head := h, addr := a, len := l, payload := p, crc := c }
  | _, _, _, _, _ => none

/-- Whether a CRC-valid frame with length byte `L` stands at the front of the `n` bytes of the buffer: what CHECK has
established when it accepts (R116, R121). -/
def frameAt (cfg : Params) (m : Memory) (n L : Nat) : Bool :=
  lengthOk cfg L && decide (L + cfg.frameOverhead ≤ n) && decide (m.read 0 = some cfg.head) &&
    decide (m.read 2 = some (BitVec.ofNat 8 L)) && decide (crcVerify cfg m L = some true)

/-! ## The forms in which outcomes, statistics and messages leave the block -/

/-- The outcome port of `width` bits, two's complement (R58, R60). -/
def outcomePort (width : Nat) : CheckOutcome → BitVec width
  | .needMoreData => 0
  | .frameAccepted n => BitVec.ofNat width n
  | .discardBytes n => -(BitVec.ofNat width n)

/-- The code of the ghost output `cause` (R156). -/
def causeCode : Option SyncCause → Nat
  | none => 0
  | some .resync => 1
  | some .head => 2
  | some .len => 3
  | some .crc => 4

/-- The display string of the statistics, unsigned decimal (R62). -/
def statsText (w r i : Counter) : String :=
  "bytes_write=" ++ toString w ++ " bytes_read=" ++ toString r ++ " bytes_invalid=" ++ toString i

/-- The length prefix of a message in software's shape (R63). -/
def messageLength (m : Message) : Int := m.payload.length

end Sys2Proof.Machine
end

