-- ==== Sys2Proof/Machine/Ops.lean ====
section
/-! DEFINITION. The named operations over the buffer and the state, the error path (SYNC.RESOLVE) and the
transport-fatal event (the block's two kinds of exception, R167), CHECK, and the steps APPLY and DRAIN are made of. -/

namespace Sys2Proof.Machine

/-! ## Writing the buffer (R8, R131, R132) -/

/-- Write one byte, keeping the canonical form. -/
def Memory.write : Memory → Nat → Byte → Memory
  | [], i, v => [(i, v)]
  | (a, b) :: m, i, v =>
    if i < a then (i, v) :: (a, b) :: m
    else if i = a then (i, v) :: m
    else (a, b) :: Memory.write m i v

/-- `MemWrite(addr, |v|, v)` (R8). -/
def Memory.writeN (m : Memory) (addr : Nat) : List Byte → Memory
  | [] => m
  | b :: bs => Memory.writeN (m.write addr b) (addr + 1) bs

/-- Move `buf[k .. fill-1]` to the front; the vacated tail has no value afterwards (R31, R132). -/
def Memory.compact (m : Memory) (k fill : Nat) : Memory :=
  m.filterMap (fun c => if k ≤ c.1 ∧ c.1 < fill then some (c.1 - k, c.2) else none)

/-! ## Outcomes of an operation -/

/-- The model's output fields, cleared at the start of every operation (log 15). -/
def State.clearOutputs (s : State) : State :=
  { s with result := .none, cause := none, wakes := 0 }

/-- A next state that only returns a result. -/
def answer (s : State) (r : Result) : Host.Outcome State Fault Refusal :=
  .next { s.clearOutputs with result := r }

/-- An internal computation's end as a step's outcome. -/
def settle : Except Fault State → Host.Outcome State Fault Refusal
  | .ok s => .next s
  | .error f => .fault f

/-- Answer with what was read, or fault where a byte has no value (R31). -/
def answerRead {α : Type} (s : State) (x : Option α) (f : α → Result) : Host.Outcome State Fault Refusal :=
  match x with
  | some a => answer s (f a)
  | none => .fault .undefinedByte

/-- The result a test gives (R64). -/
def testResult {α : Type} (onPass : α → Result) : Test α → Result
  | .pass a => onPass a
  | .wait => .outcome .needMoreData
  | .fail cause start => .syncError cause start

/-! ## The error path: the entry of a protocol-level error (R104, R167) -/

/-- What CHECK leaves: the outcome, the new flag and the ghost cause (R115, R122). -/
structure Verdict where
  outcome : CheckOutcome
  resync : Bool
  cause : Option SyncCause
  deriving DecidableEq, Repr

/-- SYNC.RESOLVE(buf, n, start, cause): a HEAD found at `k` clears the flag and discards `k` bytes, none found sets
it and discards all (R104). The return from the desynchronised condition is its clearing (R168). -/
def raiseSync (head : Byte) (m : Memory) (n start : Nat) (cause : SyncCause) : Option Verdict :=
  match scan head m start n with
  | some (.found k) => some { outcome := .discardBytes k, resync := false, cause := some cause }
  | some .notFound => some { outcome := .discardBytes n, resync := true, cause := some cause }
  | none => none

/-- TransportFatal: the background loop ends (R160). -/
def raiseTransportFatal (s : State) : State :=
  { s with rxHalted := true, wakes := if s.cfg.eofSetsExit then s.wakes + 1 else s.wakes }

/-! ## CHECK (R116) -/

/-- Step 6 of CHECK, and the acceptance (R116). -/
def checkCrc (cfg : Params) (resync : Bool) (m : Memory) (n L : Nat) : Option Verdict :=
  match crcVerify cfg m L with
  | some true => some { outcome := .frameAccepted (L + cfg.frameOverhead), resync := resync, cause := none }
  | some false => raiseSync cfg.head m n (crcScanStart cfg L) .crc
  | none => none

/-- Steps 4 and 5 of CHECK (R116). -/
def checkLen (cfg : Params) (resync : Bool) (m : Memory) (n : Nat) : Option Verdict :=
  match m.read 2 with
  | none => none
  | some b2 =>
    match lenTest cfg b2 with
    | .fail cause start => raiseSync cfg.head m n start cause
    | .wait => none
    | .pass L =>
      match boundsTest cfg L n with
      | .wait => some { outcome := .needMoreData, resync := resync, cause := none }
      | .fail cause start => raiseSync cfg.head m n start cause
      | .pass _ => checkCrc cfg resync m n L

/-- Step 3 of CHECK (R116). -/
def checkHead (cfg : Params) (resync : Bool) (m : Memory) (n : Nat) : Option Verdict :=
  match m.read 0 with
  | none => none
  | some b0 =>
    match headTest cfg b0 with
    | .fail cause start => raiseSync cfg.head m n start cause
    | .wait => none
    | .pass _ => checkLen cfg resync m n

/-- CHECK(resync, buf, n): the six tests in their order (R116); none where a byte it reads has no value (R31). -/
def checkFrame (cfg : Params) (resync : Bool) (m : Memory) (n : Nat) : Option Verdict :=
  match probeTest cfg n with
  | .wait => some { outcome := .needMoreData, resync := resync, cause := none }
  | .fail cause start => raiseSync cfg.head m n start cause
  | .pass _ =>
    match gateTest cfg resync with
    | .fail cause start => raiseSync cfg.head m n start cause
    | .wait => none
    | .pass _ => checkHead cfg resync m n

/-- The state after CHECK: only `resync` changes, beside the model's outputs (R115, R117). -/
def State.withVerdict (s : State) (v : Verdict) : State :=
  { s with resync := v.resync, cause := v.cause, result := .outcome v.outcome }

/-! ## Append, consume, deliver (R131 to R133) -/

/-- RX_APPEND(s) (R131). -/
def appendBytes (data : List Byte) (s : State) : Except Fault State :=
  if 1 ≤ data.length ∧ s.fill + data.length ≤ s.cfg.bufCap then
    .ok { s with buf := s.buf.writeN s.fill data, fill := s.fill + data.length }
  else .error .appendSize

/-- CONSUME(m) (R132). -/
def consumeBytes (m : Nat) (s : State) : Except Fault State :=
  if 1 ≤ m ∧ m ≤ s.fill then .ok { s with buf := s.buf.compact m s.fill, fill := s.fill - m }
  else .error .consumeRange

/-- DELIVER(L): write the slot, set `msg_valid`, raise the wake-up event; filling the container beyond its capacity
is a fault (R133, R162). -/
def deliverFrame (L : Nat) (s : State) : Except Fault State :=
  match readFields s.buf L with
  | none => .error .undefinedByte
  | some f =>
    if s.cfg.msgCap < f.payload.length then .error .messageOverflow
    else
      .ok { s with
        msg := { addr := f.addr, len := f.len, payload := f.payload }
        msgValid := true
        wakes := s.wakes + 1 }

/-! ## Acting on an outcome, APPLY, DRAIN (R58, R134, R135) -/

/-- What FrameAccepted(n) obliges the caller to: deliver, count, consume (R134). -/
def acceptFrame (n : Nat) (s : State) : Except Fault State :=
  match deliverFrame (n - s.cfg.frameOverhead) s with
  | .error f => .error f
  | .ok s' => consumeBytes n { s' with bytesRead := counterAdd s.cfg s'.bytesRead n }

/-- What DiscardBytes(n) obliges the caller to: count and consume (R134). -/
def discardFront (n : Nat) (s : State) : Except Fault State :=
  consumeBytes n { s with bytesInvalid := counterAdd s.cfg s.bytesInvalid n }

/-- The caller's action on an outcome (R58, R134). -/
def actOn : CheckOutcome → State → Except Fault State
  | .needMoreData, s => .ok s
  | .frameAccepted n, s => acceptFrame n s
  | .discardBytes n, s => discardFront n s

/-- The body of APPLY: CHECK, then what follows from its outcome, with the outcome (R134). -/
def applyOnce (s : State) : Except Fault (CheckOutcome × State) :=
  match checkFrame s.cfg s.resync s.buf s.fill with
  | none => .error .undefinedByte
  | some v =>
    match actOn v.outcome (s.withVerdict v) with
    | .error f => .error f
    | .ok s' => .ok (v.outcome, s')

/-- When the loop of DRAIN stops after an APPLY (R135). -/
def drainStops (o : CheckOutcome) (s : State) : Bool :=
  decide (o = .needMoreData) || decide (s.fill = 0)

/-- APPLY, if the outcome it returns is `o` (R58, R119, R134, log 3); inside a DRAIN it is that DRAIN's next iteration
(R135, log 9). -/
def applyAnswering (o : CheckOutcome) (s : State) : Except Fault State :=
  match applyOnce s with
  | .error f => .error f
  | .ok (o', s') =>
    if o' = o then .ok { s' with draining := s.draining && !drainStops o' s' } else .error .outcomeNotAnswered

/-- DRAIN's loop, run to its end: at most `fuel` APPLY steps, of which `fill + 1` are always enough (R135, R139). -/
def drainLoop : Nat → State → Except Fault State
  | 0, s => .ok { s with draining := false }
  | fuel + 1, s =>
    match applyOnce s with
    | .error f => .error f
    | .ok (o, s') => if drainStops o s' then .ok { s' with draining := false } else drainLoop fuel s'

/-- DRAIN's loop with enough fuel (R139). -/
def drainAll (s : State) : Except Fault State :=
  drainLoop (s.fill + 1) s

/-- One iteration of DRAIN; RXE stays inside the DRAIN unless the loop stops here (R135, R38). -/
def drainStep (s : State) : Except Fault State :=
  match applyOnce s with
  | .error f => .error f
  | .ok (o, s') => .ok { s' with draining := !drainStops o s' }

/-- DRAIN under the lock grain that ATOMICITY names (R38, D13, log 9). -/
def drainUnder (s : State) : Except Fault State :=
  match s.cfg.atomicity with
  | .drain => drainAll s
  | .iteration => drainStep s

/-- RXE runs one callback at a time (R166): a DRAIN under way ends before its next operation begins (log 9). -/
def finishDrain (s : State) : Except Fault State :=
  if s.draining then drainAll s else .ok s

/-- DRAIN and RX_EVENT return nothing (R64); the ghost cause of their last CHECK stays. -/
def withoutResult : Except Fault State → Except Fault State
  | .ok s => .ok { s with result := .none }
  | .error f => .error f

/-- RX_EVENT(Data(s)): RX_APPEND(s), then DRAIN (R136). -/
def receiveData (data : List Byte) (s : State) : Except Fault State :=
  match appendBytes data s with
  | .error f => .error f
  | .ok s' => drainUnder s'

/-- RX_EVENT(result), once the DRAIN before it has ended (R136). -/
def receiveRead : ReadResult → State → Except Fault State
  | .data data, s => receiveData data s
  | .wouldBlock, s => .ok s
  | .eof, s => .ok (raiseTransportFatal s)
  | .err, s => .ok (raiseTransportFatal s)

/-- The read-ready event of RXE (R136, R166). -/
def receiveEvent (r : ReadResult) (s : State) : Except Fault State :=
  match finishDrain s with
  | .error f => .error f
  | .ok s' => withoutResult (receiveRead r s')

/-! ## Taking the message (R137) -/

/-- PULL's effect for a caller whose enabling condition is examined now: the message if there is one, else the
shutdown sentinel, else none: the caller is held (R42, R137). -/
def takeMessage (s : State) : Option State :=
  if s.msgValid then some { s with msgValid := false, result := .message s.msg }
  else if shuttingDown s then some { s with result := .shutdown }
  else none

end Sys2Proof.Machine
end

