-- ==== Sys2Proof/Machine/Check.lean ====
section
/-! DEFINITION. The meaning of CHECK (R116). -/

namespace Sys2Proof.Machine

/-- CHECK on the state's own `resync`, `buf`, `fill` (R115, R116). -/
def execCheck (s : State) : Host.Outcome State Fault Refusal :=
  onReceiver s
    (match checkFrame s.cfg s.resync s.buf s.fill with
     | none => .fault .undefinedByte
     | some v => .next (s.clearOutputs.withVerdict v))

end Sys2Proof.Machine
end

