-- ==== Sys2Proof/Machine/Consumer.lean ====
section
/-! DEFINITION. The meanings of the consumer's operations (R137, R138). -/

namespace Sys2Proof.Machine

/-- PULL (R137): where it is not enabled the caller is held (R42, log 10). -/
def execPull (s : State) : Host.Outcome State Fault Refusal :=
  onEngine s
    (match takeMessage s.clearOutputs with
     | some s' => .next s'
     | none => .next { s.clearOutputs with held := s.held + 1, result := .held })

/-- GET_STATS (R138). -/
def execGetStats (s : State) : Host.Outcome State Fault Refusal :=
  onEngine s (answer s (.stats s.bytesWrite s.bytesRead s.bytesInvalid))

end Sys2Proof.Machine
end

