-- ==== Sys2Proof/Machine/Crc.lean ====
section
/-! DEFINITION. The meanings of the CRC unit's operations (R71, R72, R73, R75). -/

namespace Sys2Proof.Machine

/-- CRC8.BIT (R71). -/
def execCrc8Bit (r : Byte) (s : State) : Host.Outcome State Fault Refusal :=
  onEngine s (answer s (.byte (crcBit s.cfg.poly r)))

/-- CRC8.BYTE (R72). -/
def execCrc8Byte (r b : Byte) (s : State) : Host.Outcome State Fault Refusal :=
  onEngine s (answer s (.byte (crcByte s.cfg r b)))

/-- CRC8.BLOCK (R73). -/
def execCrc8Block (data : List Byte) (s : State) : Host.Outcome State Fault Refusal :=
  onEngine s (answer s (.byte (crc8 s.cfg data)))

/-- CRC8.VERIFY on the buffer (R75). -/
def execCrc8Verify (L : Nat) (s : State) : Host.Outcome State Fault Refusal :=
  onReceiver s
    (if lengthOk s.cfg L = false then .fault .lengthRange
     else if s.fill < L + s.cfg.frameOverhead then .fault .undefinedByte
     else answerRead s (crcVerify s.cfg s.buf L) .boolean)

end Sys2Proof.Machine
end

