-- ==== Sys2Proof/Machine/Engine.lean ====
section
/-! DEFINITION. The meanings of the receive engine's operations (R131 to R136). -/

namespace Sys2Proof.Machine

/-- RX_APPEND (R131), after the DRAIN that may be under way (R166, log 9). -/
def execRxAppend (data : List Byte) (s : State) : Host.Outcome State Fault Refusal :=
  onReceiver s
    (match finishDrain s.clearOutputs with
     | .error f => .fault f
     | .ok s' => settle (withoutResult (appendBytes data s')))

/-- CONSUME (R132). -/
def execConsume (m : Nat) (s : State) : Host.Outcome State Fault Refusal :=
  onReceiver s (settle (consumeBytes m s.clearOutputs))

/-- DELIVER (R133): only with the accepted frame at the front of the buffer (log 13). -/
def execDeliver (L : Nat) (s : State) : Host.Outcome State Fault Refusal :=
  onReceiver s
    (if frameAt s.cfg s.buf s.fill L then settle (deliverFrame L s.clearOutputs) else .fault .noAcceptedFrame)

/-- APPLY (R134); inside a DRAIN it is that DRAIN's next iteration (R135, log 9). -/
def execApply (s : State) : Host.Outcome State Fault Refusal :=
  onReceiver s
    (match applyOnce s.clearOutputs with
     | .error f => .fault f
     | .ok (o, s') => .next { s' with draining := s.draining && !drainStops o s' })

/-- DRAIN (R135). -/
def execDrain (s : State) : Host.Outcome State Fault Refusal :=
  onReceiver s (settle (withoutResult (drainUnder s.clearOutputs)))

/-- RX_EVENT (R136). -/
def execRxEvent (r : ReadResult) (s : State) : Host.Outcome State Fault Refusal :=
  onReceiver s (settle (receiveEvent r s.clearOutputs))

end Sys2Proof.Machine
end

