-- ==== Sys2Proof/Decode.lean ====
section
/-! DEFINITION. The decoder, total on any packet, rejecting by name; the encoder; and the reading of a word of
spec/opcode_table.json as a packet. Formats: R50 (frame), R60 (outcome port), R62 (status port), R64 (operation
numbers). The operand bytes of an operation are the model's own layout (log 1). -/

namespace Sys2Proof

/-! ## Operand bytes -/

/-- A 16-bit operand, low byte first (log 1). -/
def halfOf (lo hi : Byte) : Nat := lo.toNat + 256 * hi.toNat

/-- The two bytes of a 16-bit operand, low byte first (log 1). -/
def halfBytes (n : Nat) : List Byte := [BitVec.ofNat 8 n, BitVec.ofNat 8 (n / 256)]

/-- The four bytes of a descriptor handle, low byte first (log 1). -/
def wordBytes (w : BitVec 32) : List Byte :=
  [w.extractLsb' 0 8, w.extractLsb' 8 8, w.extractLsb' 16 8, w.extractLsb' 24 8]

/-- The descriptor handle of four bytes, low byte first (log 1). -/
def wordOf (b0 b1 b2 b3 : Byte) : BitVec 32 :=
  b3 ++ b2 ++ b1 ++ b0

/-- The operand byte of a cause: its place in the order of the tests, from 0 (log 1). -/
def causeByte : SyncCause → Byte
  | .resync => 0
  | .head => 1
  | .len => 2
  | .crc => 3

/-- The cause an operand byte names (log 1). -/
def causeOf (b : Byte) : Except DecodeError SyncCause :=
  match b.toNat with
  | 0 => .ok .resync
  | 1 => .ok .head
  | 2 => .ok .len
  | 3 => .ok .crc
  | _ => .error .operandValue

/-- The operand byte of a descriptor kind (log 1). -/
def kindByte : DescriptorKind → Byte
  | .liveBus => 0
  | .fileBacked => 1

/-- The descriptor kind an operand byte names (log 1). -/
def kindOf (b : Byte) : Except DecodeError DescriptorKind :=
  match b.toNat with
  | 0 => .ok .liveBus
  | 1 => .ok .fileBacked
  | _ => .error .operandValue

/-- The operand byte of the environment's choice at a construction (log 1). -/
def constructionByte : Construction → Byte
  | .succeeds => 0
  | .fails => 1

/-- The environment's choice an operand byte names (log 1). -/
def constructionOf (b : Byte) : Except DecodeError Construction :=
  match b.toNat with
  | 0 => .ok .succeeds
  | 1 => .ok .fails
  | _ => .error .operandValue

/-- The operand bytes of a read result: a tag, and the bytes read (log 1). -/
def readBytes : ReadResult → List Byte
  | .wouldBlock => [0]
  | .eof => [1]
  | .err => [2]
  | .data s => 3 :: s

/-- The read result that operand bytes give (log 1). -/
def readOf : List Byte → Except DecodeError ReadResult
  | [] => .error .operandBytes
  | tag :: s =>
    match tag.toNat, s with
    | 0, [] => .ok .wouldBlock
    | 1, [] => .ok .eof
    | 2, [] => .ok .err
    | 3, s => .ok (.data s)
    | 0, _ => .error .operandBytes
    | 1, _ => .error .operandBytes
    | 2, _ => .error .operandBytes
    | _, _ => .error .operandValue

/-- An operation without operand bytes. -/
def noOperand (i : Instr) : List Byte → Except DecodeError Instr
  | [] => .ok i
  | _ => .error .operandBytes

/-- An operation with one byte. -/
def byteOperand (f : Byte → Instr) : List Byte → Except DecodeError Instr
  | [b] => .ok (f b)
  | _ => .error .operandBytes

/-- An operation with two bytes. -/
def pairOperand (f : Byte → Byte → Instr) : List Byte → Except DecodeError Instr
  | [a, b] => .ok (f a b)
  | _ => .error .operandBytes

/-- An operation with one length byte. -/
def lengthOperand (f : Nat → Instr) : List Byte → Except DecodeError Instr
  | [b] => .ok (f b.toNat)
  | _ => .error .operandBytes

/-- An operation with one 16-bit operand. -/
def halfOperand (f : Nat → Instr) : List Byte → Except DecodeError Instr
  | [lo, hi] => .ok (f (halfOf lo hi))
  | _ => .error .operandBytes

/-- The operands of SYNC.RESOLVE: the scan start and the cause (R104). -/
def resolveOperands : List Byte → Except DecodeError Instr
  | [lo, hi, c] =>
    match causeOf c with
    | .ok cause => .ok (.syncResolve (halfOf lo hi) cause)
    | .error e => .error e
  | _ => .error .operandBytes

/-- The operands of RESET: descriptor, kind tag, and the environment's choice (R161, R180). -/
def resetOperands : List Byte → Except DecodeError Instr
  | [b0, b1, b2, b3, k, c] =>
    match kindOf k, constructionOf c with
    | .ok kind, .ok built => .ok (.reset (wordOf b0 b1 b2 b3) kind built)
    | _, _ => .error .operandValue
  | _ => .error .operandBytes

/-- The operand of RX_EVENT (R136). -/
def readOperand (operands : List Byte) : Except DecodeError Instr :=
  match readOf operands with
  | .ok r => .ok (.rxEvent r)
  | .error e => .error e

/-! ## The decoder -/

/-- An operation from its number (R64) and operand bytes. -/
def decodeOp (number : BitVec 5) (operands : List Byte) : Except DecodeError Instr :=
  match number.toNat with
  | 0 => byteOperand .crc8Bit operands
  | 1 => pairOperand .crc8Byte operands
  | 2 => .ok (.crc8Block operands)
  | 3 => lengthOperand .crc8Verify operands
  | 4 => noOperand .parseProbe operands
  | 5 => noOperand .parseHead operands
  | 6 => noOperand .parseLen operands
  | 7 => lengthOperand .parseBounds operands
  | 8 => lengthOperand .parseFields operands
  | 9 => noOperand .syncGate operands
  | 10 => halfOperand .syncScan operands
  | 11 => resolveOperands operands
  | 12 => noOperand .check operands
  | 13 => .ok (.rxAppend operands)
  | 14 => halfOperand .consume operands
  | 15 => lengthOperand .deliver operands
  | 16 => noOperand .apply operands
  | 17 => noOperand .drain operands
  | 18 => readOperand operands
  | 19 => noOperand .pull operands
  | 20 => noOperand .getStats operands
  | 21 => noOperand .exitReq operands
  | 22 => noOperand .join operands
  | 23 => noOperand .free operands
  | 24 => resetOperands operands
  | _ => .error .unusedNumber

/-- A candidate frame on the wire: HEAD, ADDR, LEN, then `LEN - 1` bytes (none for LEN 0 or 1) and the CRC8 byte
(R50, R57). Its LEN range and CRC are not judged here: the block's validator does that (R61, log 3). -/
def decodeWire (headByte : Byte) : List Byte → Except DecodeError Instr
  | head :: addr :: len :: rest =>
    if head ≠ headByte then .error .notHead
    else
      match rest.drop (len.toNat - 1) with
      | [crc] => .ok (.frame addr len (rest.take (len.toNat - 1)) crc)
      | [] => .error .frameCut
      | _ => .error .frameSurplus
  | head :: _ => if head ≠ headByte then .error .notHead else .error .frameCut
  | [] => .error .frameCut

/-- The outcome port of `width` bits, two's complement: 0, a positive 9-bit number, or the sign bit set for a discard
(R58, R60). -/
def decodeOutcome (width word : Nat) : Except DecodeError Instr :=
  if word = 0 then .ok .outcomeNeedMoreData
  else if 2 ^ width ≤ word then .error .unusedOutcome
  else if 2 ^ (width - 1) ≤ word then .ok (.outcomeDiscardBytes (2 ^ width - word))
  else if word < 2 ^ 9 then .ok (.outcomeFrameAccepted word)
  else .error .unusedOutcome

/-- The decoder, under the parameters of R5. Of the status port only index 0 is an input, of CTR_W bits; indexes 1 and 2
are the block's own outputs (R20, R62). -/
def decode (cfg : Params) : Packet → Except DecodeError Instr
  | .wire bytes => decodeWire cfg.head bytes
  | .outcome word => decodeOutcome cfg.outcomeW word
  | .status w _ _ => if w < 2 ^ cfg.ctrW then .ok (.stats w) else .error .unusedStatus
  | .message => .ok .message
  | .op number operands => decodeOp number operands

/-! ## The encoder -/

/-- The bytes of a frame in wire order (R50). -/
def frameBytes (head addr len : Byte) (payload : List Byte) (crc : Byte) : List Byte :=
  head :: addr :: len :: (payload ++ [crc])

/-- The packet of an instruction, under the parameters of R5. -/
def encode (cfg : Params) : Instr → Packet
  | .frame addr len payload crc => .wire (frameBytes cfg.head addr len payload crc)
  | .outcomeNeedMoreData => .outcome 0
  | .outcomeFrameAccepted n => .outcome n
  | .outcomeDiscardBytes n => .outcome (2 ^ cfg.outcomeW - n)
  | .stats w => .status w 0 0
  | .message => .message
  | .crc8Bit r => .op 0 [r]
  | .crc8Byte r b => .op 1 [r, b]
  | .crc8Block s => .op 2 s
  | .crc8Verify L => .op 3 [BitVec.ofNat 8 L]
  | .parseProbe => .op 4 []
  | .parseHead => .op 5 []
  | .parseLen => .op 6 []
  | .parseBounds L => .op 7 [BitVec.ofNat 8 L]
  | .parseFields L => .op 8 [BitVec.ofNat 8 L]
  | .syncGate => .op 9 []
  | .syncScan start => .op 10 (halfBytes start)
  | .syncResolve start cause => .op 11 (halfBytes start ++ [causeByte cause])
  | .check => .op 12 []
  | .rxAppend s => .op 13 s
  | .consume m => .op 14 (halfBytes m)
  | .deliver L => .op 15 [BitVec.ofNat 8 L]
  | .apply => .op 16 []
  | .drain => .op 17 []
  | .rxEvent r => .op 18 (readBytes r)
  | .pull => .op 19 []
  | .getStats => .op 20 []
  | .exitReq => .op 21 []
  | .join => .op 22 []
  | .free => .op 23 []
  | .reset d k c => .op 24 (wordBytes d ++ [kindByte k, constructionByte c])

/-- The byte-list macro `FRAME(a; p0 .. pm)` of R66, as the frame it stands for. -/
def frameOf (cfg : Params) (addr : Byte) (payload : List Byte) : Instr :=
  let len : Byte := BitVec.ofNat 8 (payload.length + 1)
  .frame addr len payload (Machine.crc8 cfg (len :: payload))

/-! ## Words of the opcode table -/

/-- How many operand bytes an operation's shortest encoding has (log 1): the word of the table gives them no bits,
so they are zero. -/
def operandCount (number : BitVec 5) : Nat :=
  match number.toNat with
  | 0 => 1
  | 1 => 2
  | 3 => 1
  | 7 => 1
  | 8 => 1
  | 10 => 2
  | 11 => 3
  | 14 => 2
  | 15 => 1
  | 18 => 1
  | 24 => 6
  | _ => 0

/-- The `k` bytes of a number, the least significant first: the first word is at the lowest place. -/
def leBytes : Nat → Nat → List Byte
  | 0, _ => []
  | k + 1, w => BitVec.ofNat 8 w :: leBytes k (w / 256)

/-- A frame's bytes from the `k` bytes of a table word: zero bytes follow up to the end of the frame that its LEN
byte claims. -/
def wirePadded (k w : Nat) : List Byte :=
  let given := leBytes k w
  given ++ List.replicate (4 + ((given.getD 2 0).toNat - 1) - k) 0

/-- The packet of an instruction whose bits are `w`, numbered as the table numbers them: 16 bits are an outcome word,
96 the status port, no bits the message record, a first byte HEAD a frame, and anything else an operation number in
the low 5 bits (the table's mask `0x1F`), followed by zero operand bytes (log 2). -/
def tablePacket (nbits w : Nat) : Packet :=
  if nbits = 0 then .message
  else if nbits = 16 then .outcome (w % 2 ^ 16)
  else if nbits = 96 then .status (w % 2 ^ 32) (w / 2 ^ 32 % 2 ^ 32) (w / 2 ^ 64 % 2 ^ 32)
  else if w % 256 = Config.params.head.toNat then .wire (wirePadded (nbits / 8) w)
  else .op (BitVec.ofNat 5 w) (List.replicate (operandCount (BitVec.ofNat 5 w)) 0)

/-- The instruction the decoder reads from a word of the table, whose rows are laid out for the values of R5. -/
def decodeTableWord (nbits w : Nat) : Option Instr :=
  match decode Config.params (tablePacket nbits w) with
  | .ok i => some i
  | .error _ => none

end Sys2Proof
end

