-- ==== Sys2Proof/Machine/Formats.lean ====
section
/-! DEFINITION. The meanings of the format rows of the table: a transfer in that format at the block's boundary
(R50, R58, R62, R63, log 3). -/

namespace Sys2Proof.Machine

/-- FRAME: one read brings the frame's bytes (R50, R65, R136). -/
def execFrame (addr len : Byte) (payload : List Byte) (crc : Byte) (s : State) : Host.Outcome State Fault Refusal :=
  onReceiver s (settle (receiveEvent (.data (frameBytes s.cfg.head addr len payload crc)) s.clearOutputs))

/-- OUTCOME.NeedMoreData: the APPLY whose CHECK answers it; the caller consumes nothing (R58, R134, log 3). -/
def execOutcomeNeedMoreData (s : State) : Host.Outcome State Fault Refusal :=
  onReceiver s (settle (applyAnswering .needMoreData s.clearOutputs))

/-- OUTCOME.FrameAccepted(n): the APPLY whose CHECK answers it; the caller delivers, counts and consumes (R58, R134,
log 3). -/
def execOutcomeFrameAccepted (n : Nat) (s : State) : Host.Outcome State Fault Refusal :=
  onReceiver s (settle (applyAnswering (.frameAccepted n) s.clearOutputs))

/-- OUTCOME.DiscardBytes(n): the APPLY whose CHECK answers it; the caller counts and consumes (R58, R134, log 3). -/
def execOutcomeDiscardBytes (n : Nat) (s : State) : Host.Outcome State Fault Refusal :=
  onReceiver s (settle (applyAnswering (.discardBytes n) s.clearOutputs))

/-- STATS: the transmit path drives index 0, whose `CTR_W` bits the block takes, and the block drives all three (R20,
R62). -/
def execStats (bytesWrite : Counter) (s : State) : Host.Outcome State Fault Refusal :=
  let w := bytesWrite % 2 ^ s.cfg.ctrW
  onEngine s (answer { s with bytesWrite := w } (.stats w s.bytesRead s.bytesInvalid))

/-- MESSAGE: a held PULL re-examines its condition and, if it is met, takes the result and is held no more (R43,
R63, log 10); without a held caller nothing happens. -/
def execMessage (s : State) : Host.Outcome State Fault Refusal :=
  onEngine s
    (if s.held = 0 then answer s .none
     else
       match takeMessage s.clearOutputs with
       | some s' => .next { s' with held := s.held - 1 }
       | none => answer s .held)

end Sys2Proof.Machine
end

