-- ==== Sys2Proof/Machine/Lifecycle.lean ====
section
/-! DEFINITION. The meanings of the lifecycle operations (R169, R180). -/

namespace Sys2Proof.Machine

/-- EXIT_REQ (R169): enabled in Running; raises the wake-up event. -/
def execExitReq (s : State) : Host.Outcome State Fault Refusal :=
  onEngine s
    (if s.runState = .running then .next { s.clearOutputs with runState := .exitRequested, wakes := 1 }
     else .refused .lifecycleOrder)

/-- JOIN (R169): enabled in ExitRequested with RXE between operations. -/
def execJoin (s : State) : Host.Outcome State Fault Refusal :=
  onEngine s
    (if s.runState = .exitRequested then
       if s.draining then .refused .receiverBusy else .next { s.clearOutputs with runState := .joined }
     else .refused .lifecycleOrder)

/-- FREE (R169): enabled in Joined; the slot's message is released. -/
def execFree (s : State) : Host.Outcome State Fault Refusal :=
  onEngine s
    (if s.runState = .joined then .next { s.clearOutputs with runState := .freed, msgValid := false }
     else .refused .lifecycleOrder)

/-- RESET (R180): a new engine, or none at all, as the environment chooses (R161, U14, log 11). -/
def execReset (descriptor : BitVec 32) (kind : DescriptorKind) (built : Construction) (s : State) :
    Host.Outcome State Fault Refusal :=
  match built with
  | .succeeds => .next { State.fresh s.cfg descriptor kind s.pending with result := .engine }
  | .fails => .next { State.fresh s.cfg descriptor kind s.pending with constructed := false, result := .noEngine }

end Sys2Proof.Machine
end

