-- ==== Sys2Proof/Machine/Parse.lean ====
section
/-! DEFINITION. The meanings of the PARSE unit's operations (R85 to R89). A test on its own only answers; the error
path is entered by CHECK (R86, R87). -/

namespace Sys2Proof.Machine

/-- PARSE.PROBE (R85). -/
def execParseProbe (s : State) : Host.Outcome State Fault Refusal :=
  onReceiver s (answer s (testResult (fun _ => .pass) (probeTest s.cfg s.fill)))

/-- PARSE.HEAD (R86). Its precondition of MIN_PROBE bytes is enforced only for the byte it reads: DESIGN CHOICE (log
12). -/
def execParseHead (s : State) : Host.Outcome State Fault Refusal :=
  onReceiver s
    (if s.fill < 1 then .fault .undefinedByte
     else answerRead s (s.buf.read 0) (fun b => testResult (fun _ => .pass) (headTest s.cfg b)))

/-- PARSE.LEN (R87). Its precondition, MIN_PROBE bytes and the HEAD test passed, is enforced only for the bytes up to
the one it reads; where `buf[0]` is not HEAD it answers from `buf[2]` all the same: DESIGN CHOICE (log 12). -/
def execParseLen (s : State) : Host.Outcome State Fault Refusal :=
  onReceiver s
    (if s.fill < 3 then .fault .undefinedByte
     else answerRead s (s.buf.read 2) (fun b => testResult .length (lenTest s.cfg b)))

/-- PARSE.BOUNDS (R88). -/
def execParseBounds (L : Nat) (s : State) : Host.Outcome State Fault Refusal :=
  onReceiver s
    (if lengthOk s.cfg L = false then .fault .lengthRange
     else answer s (testResult (fun _ => .pass) (boundsTest s.cfg L s.fill)))

/-- PARSE.FIELDS (R89). -/
def execParseFields (L : Nat) (s : State) : Host.Outcome State Fault Refusal :=
  onReceiver s
    (if lengthOk s.cfg L = false then .fault .lengthRange
     else if s.fill < L + s.cfg.frameOverhead then .fault .undefinedByte
     else answerRead s (readFields s.buf L) .fields)

end Sys2Proof.Machine
end

