-- ==== Sys2Proof/Machine/Sync.lean ====
section
/-! DEFINITION. The meanings of the SYNC unit's operations (R100, R102, R104). -/

namespace Sys2Proof.Machine

/-- SYNC.GATE (R100). Its precondition of MIN_PROBE bytes is not enforced: DESIGN CHOICE (log 12). -/
def execSyncGate (s : State) : Host.Outcome State Fault Refusal :=
  onReceiver s (answer s (testResult (fun _ => .pass) (gateTest s.cfg s.resync)))

/-- What SYNC.SCAN returns (R102). -/
def scanAnswer : ScanResult → Result
  | .found k => .found k
  | .notFound => .notFound

/-- SYNC.SCAN (R102). -/
def execSyncScan (start : Nat) (s : State) : Host.Outcome State Fault Refusal :=
  onReceiver s (answerRead s (scan s.cfg.head s.buf start s.fill) scanAnswer)

/-- SYNC.RESOLVE: writes `resync`, returns the discard (R104). -/
def execSyncResolve (start : Nat) (cause : SyncCause) (s : State) : Host.Outcome State Fault Refusal :=
  onReceiver s
    (if scanStartOk s.cfg s.buf start cause = false ∨ s.fill < s.cfg.minProbe then .fault .resolveRange
     else
       match raiseSync s.cfg.head s.buf s.fill start cause with
       | none => .fault .undefinedByte
       | some v => .next (s.clearOutputs.withVerdict v))

end Sys2Proof.Machine
end

