-- ==== Sys2Proof/Machine/Dispatch.lean ====
section
/-! DEFINITION. The dispatch: one arm per row of the opcode table. -/

namespace Sys2Proof.Machine

/-- The meaning of an instruction. -/
def exec (i : Instr) (s : State) : Host.Outcome State Fault Refusal :=
  match i with
  | .frame addr len payload crc => Sys2Proof.Machine.execFrame addr len payload crc s
  | .outcomeNeedMoreData => Sys2Proof.Machine.execOutcomeNeedMoreData s
  | .outcomeFrameAccepted n => Sys2Proof.Machine.execOutcomeFrameAccepted n s
  | .outcomeDiscardBytes n => Sys2Proof.Machine.execOutcomeDiscardBytes n s
  | .stats bytesWrite => Sys2Proof.Machine.execStats bytesWrite s
  | .message => Sys2Proof.Machine.execMessage s
  | .crc8Bit r => Sys2Proof.Machine.execCrc8Bit r s
  | .crc8Byte r b => Sys2Proof.Machine.execCrc8Byte r b s
  | .crc8Block data => Sys2Proof.Machine.execCrc8Block data s
  | .crc8Verify L => Sys2Proof.Machine.execCrc8Verify L s
  | .parseProbe => Sys2Proof.Machine.execParseProbe s
  | .parseHead => Sys2Proof.Machine.execParseHead s
  | .parseLen => Sys2Proof.Machine.execParseLen s
  | .parseBounds L => Sys2Proof.Machine.execParseBounds L s
  | .parseFields L => Sys2Proof.Machine.execParseFields L s
  | .syncGate => Sys2Proof.Machine.execSyncGate s
  | .syncScan start => Sys2Proof.Machine.execSyncScan start s
  | .syncResolve start cause => Sys2Proof.Machine.execSyncResolve start cause s
  | .check => Sys2Proof.Machine.execCheck s
  | .rxAppend data => Sys2Proof.Machine.execRxAppend data s
  | .consume m => Sys2Proof.Machine.execConsume m s
  | .deliver L => Sys2Proof.Machine.execDeliver L s
  | .apply => Sys2Proof.Machine.execApply s
  | .drain => Sys2Proof.Machine.execDrain s
  | .rxEvent r => Sys2Proof.Machine.execRxEvent r s
  | .pull => Sys2Proof.Machine.execPull s
  | .getStats => Sys2Proof.Machine.execGetStats s
  | .exitReq => Sys2Proof.Machine.execExitReq s
  | .join => Sys2Proof.Machine.execJoin s
  | .free => Sys2Proof.Machine.execFree s
  | .reset descriptor kind built => Sys2Proof.Machine.execReset descriptor kind built s

end Sys2Proof.Machine
end

