-- ==== Sys2Proof/Machine/Fetch.lean ====
section
/-! DEFINITION. Where the next instruction comes from: the head of `pending` (R11, R65, log 2), and what happens when
nothing is invoked. -/

namespace Sys2Proof.Machine

/-- Nothing is invoked: RXE goes on with a DRAIN that is under way (R135), else the block waits (R11, log 2). -/
def idle (s : State) : Host.Outcome State Fault Refusal :=
  if s.draining && receiverLive s then settle (drainStep s.clearOutputs) else .next s

/-- The next packet and the state without it. -/
def fetch (s : State) : Option (Packet × State) :=
  match s.pending with
  | [] => none
  | p :: rest => some (p, { s with pending := rest })

/-- Put an instruction of the table before everything that is pending (log 2). -/
def placeWord (s : State) (nbits w : Nat) : State :=
  { s with pending := tablePacket nbits w :: s.pending }

end Sys2Proof.Machine
end

