-- ==== Sys2Proof/Machine/Step.lean ====
section
/-! DEFINITION. One step: fetch, decode, execute. -/

namespace Sys2Proof.Machine

/-- One step of the machine: the next pending invocation, or what RXE does when there is none (R11, R39). -/
def step (s : State) : Host.Outcome State Fault Refusal :=
  match fetch s with
  | none => idle s
  | some (p, s') =>
    match decode s.cfg p with
    | .ok i => exec i s'
    | .error e => .refused (.undecodable e)

/-- The state with one instruction of the table placed where step fetches next (log 2). -/
def State.withFetchWord (s : State) (nbits w : Nat) : State :=
  placeWord s nbits w

end Sys2Proof.Machine
end

