-- ==== Sys2Proof/Safety.lean ====
section
/-! DEFINITION. The words claims are made of: what the buffer holds as a byte sequence, when a frame stands at its
front, when CHECK waits and when it fails (R116, R156), the invariant (R28), the order of the lifecycle states. They
speak of byte sequences only, not of the model's own tests and scans. -/

namespace Sys2Proof.Machine

/-! ## The buffer as a byte sequence -/

/-- The valid bytes of the buffer are exactly `bytes`, index 0 first, and nothing else has a value (R12, R31). -/
def Contents (s : State) (bytes : List Byte) : Prop :=
  s.fill = bytes.length ∧ ∀ i : Nat, s.buf.read i = bytes[i]?

/-- The CRC span of a window whose length byte is `L`: indexes 2 to `L + 1` (R36, R74). -/
def spanOf (bytes : List Byte) (L : Nat) : List Byte :=
  (bytes.drop 2).take L

/-- The payload of a window whose length byte is `L`: indexes 3 to `L + 1` (R36). -/
def payloadOf (bytes : List Byte) (L : Nat) : List Byte :=
  (bytes.drop 3).take (L - 1)

/-- The first bytes are a header with a legal length byte `L` (R86, R87). -/
def LegalHeader (cfg : Params) (bytes : List Byte) (L : Nat) : Prop :=
  cfg.minProbe ≤ bytes.length ∧ bytes[0]? = some cfg.head ∧ cfg.lMin ≤ L ∧ L ≤ cfg.lMax ∧
    bytes[2]? = some (BitVec.ofNat 8 L)

/-- A whole window with a legal header and a matching CRC8 byte stands at the front (R50, R121 item 1). A window is the
span and the three bytes HEAD, ADDR and CRC8 outside it, which is FRAME_OVERHEAD (R6). -/
def FrameAtFront (cfg : Params) (bytes : List Byte) (L : Nat) : Prop :=
  LegalHeader cfg bytes L ∧ L + 3 ≤ bytes.length ∧ bytes[L + 2]? = some (crc8 cfg (spanOf bytes L))

/-! ## When CHECK waits, when it fails, what a failure answers -/

/-- CHECK asks for more data: fewer than MIN_PROBE bytes, or in sync and the window is incomplete (R116 steps 1 and 5).
-/
def Waits (cfg : Params) (resync : Bool) (bytes : List Byte) : Prop :=
  bytes.length < cfg.minProbe ∨ (resync = false ∧ ∃ L : Nat, LegalHeader cfg bytes L ∧ bytes.length < L + 3)

/-- A protocol-level failure with its cause and scan start: the rows 1 to 4 of R156. -/
def FailsWith (cfg : Params) (resync : Bool) (bytes : List Byte) : SyncCause → Nat → Prop
  | .resync, start => cfg.minProbe ≤ bytes.length ∧ resync = true ∧ start = cfg.scanStartResync
  | .head, start =>
    cfg.minProbe ≤ bytes.length ∧ resync = false ∧ bytes[0]? ≠ some cfg.head ∧ start = cfg.scanStartHead
  | .len, start =>
    cfg.minProbe ≤ bytes.length ∧ resync = false ∧ bytes[0]? = some cfg.head ∧
      (∃ b : Byte, bytes[2]? = some b ∧ (b.toNat < cfg.lMin ∨ cfg.lMax < b.toNat)) ∧ start = cfg.scanStartLen
  | .crc, start =>
    resync = false ∧ ∃ L : Nat, LegalHeader cfg bytes L ∧ L + 3 ≤ bytes.length ∧
      bytes[L + 2]? ≠ some (crc8 cfg (spanOf bytes L)) ∧ start = crcScanStart cfg L

/-- `k` is the least index from `start` on that holds HEAD (R102). -/
def FirstHead (head : Byte) (bytes : List Byte) (start k : Nat) : Prop :=
  start ≤ k ∧ bytes[k]? = some head ∧ ∀ j : Nat, start ≤ j → j < k → bytes[j]? ≠ some head

/-- No index from `start` on holds HEAD (R102). -/
def NoHead (head : Byte) (bytes : List Byte) (start : Nat) : Prop :=
  ∀ j : Nat, start ≤ j → bytes[j]? ≠ some head

/-- The error path's answer and the flag it leaves (R104). -/
def Resolves (head : Byte) (bytes : List Byte) (start : Nat) (o : CheckOutcome) (flag : Bool) : Prop :=
  (∃ k : Nat, FirstHead head bytes start k ∧ o = .discardBytes k ∧ flag = false) ∨
    (NoHead head bytes start ∧ o = .discardBytes bytes.length ∧ flag = true)

/-! ## The invariant -/

/-- The buffer holds exactly the bytes that are valid, in canonical form, and is within its capacity
(R12, R28 item 1, R31). -/
def BufferSound (s : State) : Prop :=
  s.buf.wf s.cfg.bufCap = true ∧ s.fill ≤ s.cfg.bufCap ∧ ∃ bytes : List Byte, Contents s bytes

/-- A message that waits in the slot is a frame's (R17, R28 item 3). -/
def SlotSound (s : State) : Prop :=
  s.msgValid = true →
    s.cfg.lMin ≤ s.msg.len.toNat ∧ s.msg.len.toNat ≤ s.cfg.lMax ∧ s.msg.payload.length = s.msg.len.toNat - 1

/-- The counters are below 2 to the power CTR_W (R15, R16, R20, R22). -/
def CountersSound (s : State) : Prop :=
  s.bytesRead < 2 ^ s.cfg.ctrW ∧ s.bytesInvalid < 2 ^ s.cfg.ctrW ∧ s.bytesWrite < 2 ^ s.cfg.ctrW

/-- The invariant of the state (R6, R28). -/
def Sound (s : State) : Prop :=
  s.cfg.wf = true ∧ BufferSound s ∧ SlotSound s ∧ CountersSound s

/-! ## Lifecycle, agents, arrivals -/

/-- The order of the lifecycle states (R18, R28 item 7). -/
def RunState.rank : RunState → Nat
  | .running => 0
  | .exitRequested => 1
  | .joined => 2
  | .freed => 3

/-- The operations that only RXE performs (R130). -/
def receiverOp : Instr → Bool
  | .frame _ _ _ _ => true
  | .outcomeNeedMoreData => true
  | .outcomeFrameAccepted _ => true
  | .outcomeDiscardBytes _ => true
  | .crc8Verify _ => true
  | .parseProbe => true
  | .parseHead => true
  | .parseLen => true
  | .parseBounds _ => true
  | .parseFields _ => true
  | .syncGate => true
  | .syncScan _ => true
  | .syncResolve _ _ => true
  | .check => true
  | .rxAppend _ => true
  | .consume _ => true
  | .deliver _ => true
  | .apply => true
  | .drain => true
  | .rxEvent _ => true
  | .stats _ => false
  | .message => false
  | .crc8Bit _ => false
  | .crc8Byte _ _ => false
  | .crc8Block _ => false
  | .pull => false
  | .getStats => false
  | .exitReq => false
  | .join => false
  | .free => false
  | .reset _ _ _ => false

/-- The instructions that can run an APPLY: APPLY itself, the rows of its outcomes, DRAIN, reads, and an append, which
first finishes a DRAIN under way (R134 to R136, R173, log 3, log 9). -/
def runsApply : Instr → Bool
  | .frame _ _ _ _ => true
  | .outcomeNeedMoreData => true
  | .outcomeFrameAccepted _ => true
  | .outcomeDiscardBytes _ => true
  | .rxAppend _ => true
  | .apply => true
  | .drain => true
  | .rxEvent _ => true
  | _ => false

/-- RESET, the one operation that needs no engine (R180). -/
def isReset : Instr → Bool
  | .reset _ _ _ => true
  | _ => false

/-- The operation's number in the list of R64. -/
def numbered (i : Instr) (n : BitVec 5) : Prop :=
  ∃ operands : List Byte, ∀ cfg : Params, encode cfg i = .op n operands

/-- How many bytes an operation that completes brings into the buffer (R131, R136). -/
def arriving : Instr → Nat
  | .frame _ _ payload _ => payload.length + 4
  | .rxAppend data => data.length
  | .rxEvent (.data data) => data.length
  | _ => 0

/-- The instruction that hands an outcome of CHECK to its caller (R58). -/
def outcomeInstr : CheckOutcome → Instr
  | .needMoreData => .outcomeNeedMoreData
  | .frameAccepted n => .outcomeFrameAccepted n
  | .discardBytes n => .outcomeDiscardBytes n

/-- The total of the law of conservation, modulo 2^CTR_W (R5, R140). -/
def accounted (s : State) : Counter :=
  (s.bytesRead + s.bytesInvalid + s.fill) % 2 ^ s.cfg.ctrW

end Sys2Proof.Machine
end

