-- ==== Sys2Proof/Certificates/Slice0/Obligations.lean ====
section
/-! DEFINITION. The statements for the provers. The fields `result`, `cause` and `wakes` of a state are the model's own
outputs (log 15): what an operation returned, the ghost cause of R122, how often the wake-up event was raised. A next
state is written out whole, so that what a statement does not name is unchanged. Every statement holds for every choice
of the parameters of R5 that it does not restrict (`cfg`, log 4); where it rests on the relations of R6 it has them as
the premise `cfg.wf`. Where a rule is written with a number of R5, its statement has the parameter in that place. Which
value `Config.params` gives it is said by the statement where the rule tests or scans for it, and of all parameters by
ResetLeavesTheStatedValues. -/

open Sys2Proof Sys2Proof.Machine

/-! ## Unit CRC -/

/-- R71 (operation 0): one bit step. That bit 7 before the shift decides is R71's own general knowledge (log 16). The
register is doubled modulo 256, and XORed with POLY (R5: 0x07) when bit 7 was set; nothing else changes. That it runs on
every engine that is not freed, also in Joined and after a transport-fatal event, is the model's choice (log 20). -/
def Obligations.CrcBitShiftsAndXors : Prop :=
  ∀ (r : Byte) (s : State), engineLive s = true →
    numbered (.crc8Bit r) 0 ∧ exec (.crc8Bit r) s = .next { s with
      result := .byte (BitVec.ofNat 8
        (if 128 ≤ r.toNat then Nat.xor (2 * r.toNat % 256) s.cfg.poly.toNat else 2 * r.toNat))
      cause := none
      wakes := 0 }

/-- R72 (operation 1): the byte is XORed in, then eight bit steps; nothing else changes. That a CRC_REFLECT other than
the source's "none" reverses the byte first is the model's choice (log 18). That it runs on every engine
that is not freed, also in Joined and after a transport-fatal event, is the model's choice (log 20). -/
def Obligations.CrcByteXorsThenEightBits : Prop :=
  ∀ (r b p : Byte) (s : State), s.cfg.poly = p → engineLive s = true →
    numbered (.crc8Byte r b) 1 ∧ exec (.crc8Byte r b) s = .next { s with
      result := .byte (crcBit p (crcBit p (crcBit p (crcBit p (crcBit p (crcBit p (crcBit p (crcBit p
        (r ^^^ crcReflected s.cfg b)))))))))
      cause := none
      wakes := 0 } ∧
    (s.cfg.crcReflect = .none → crcReflected s.cfg b = b)

/-- R73 (operation 2): the CRC of a sequence starts from CRC_INIT (R5: zero) and absorbs its bytes in ascending order;
with no final XOR and no reflection, which is R70, it is the register; nothing else changes. That it runs on every
engine that is not freed, also in Joined and after a transport-fatal event, is the model's choice (log 20). -/
def Obligations.CrcBlockAbsorbsInOrder : Prop :=
  (∀ (data : List Byte) (s : State), engineLive s = true →
      numbered (.crc8Block data) 2 ∧
        exec (.crc8Block data) s = .next { s with result := .byte (crc8 s.cfg data), cause := none, wakes := 0 }) ∧
    ∀ cfg : Params, crcRegister cfg [] = cfg.crcInit ∧
      (∀ (data : List Byte) (b : Byte), crcRegister cfg (data ++ [b]) = crcByte cfg (crcRegister cfg data) b) ∧
      (cfg.crcXorOut = 0 → cfg.crcReflect = .none → ∀ data : List Byte, crc8 cfg data = crcRegister cfg data)

/-- R77 item 1: the CRC of the byte-wise XOR of two sequences of equal length is the XOR of their CRCs. It needs the
zero initial register and no final XOR of R70, whatever POLY. -/
def Obligations.CrcIsLinear : Prop :=
  ∀ (cfg : Params) (a b : List Byte), cfg.crcInit = 0 → cfg.crcXorOut = 0 → a.length = b.length →
    crc8 cfg (List.zipWith (· ^^^ ·) a b) = crc8 cfg a ^^^ crc8 cfg b

/-- R77 item 3: a sequence followed by its CRC has residue zero, and no other byte behind it has. It needs no final XOR
(R70) and a POLY whose constant term is not zero, as that of 0x07 (R5). -/
def Obligations.CrcResidueIsZeroExactly : Prop :=
  ∀ (cfg : Params) (data : List Byte) (b : Byte), cfg.crcXorOut = 0 → cfg.poly.getLsbD 0 = true →
    (crc8 cfg (data ++ [b]) = 0 ↔ b = crc8 cfg data)

/-- R77 item 4: changing exactly one byte of a sequence changes its CRC. It needs a POLY whose constant term is not
zero, as that of 0x07 (R5). -/
def Obligations.CrcSeesEveryByteChange : Prop :=
  ∀ (cfg : Params) (front back : List Byte) (x y : Byte), cfg.poly.getLsbD 0 = true → x ≠ y →
    crc8 cfg (front ++ x :: back) ≠ crc8 cfg (front ++ y :: back)

/-- R74, R75 (operation 3): CRC8.VERIFY answers whether the CRC of LEN and PAYLOAD equals the byte behind them; nothing
else changes. -/
def Obligations.CrcVerifyComparesTheSpan : Prop :=
  ∀ (s : State) (bytes : List Byte) (L : Nat), receiverLive s = true → s.cfg.wf = true → Contents s bytes →
    s.cfg.lMin ≤ L → L ≤ s.cfg.lMax → L + 3 ≤ bytes.length →
    numbered (.crc8Verify L) 3 ∧ exec (.crc8Verify L) s = .next { s with
      result := .boolean (decide (bytes[L + 2]? = some (crc8 s.cfg (spanOf bytes L))))
      cause := none
      wakes := 0 }

/-! ## Unit PARSE -/

/-- R85 (operation 4): fewer than MIN_PROBE (R5: 6) bytes are NeedMoreData, whatever the flag; nothing else changes. -/
def Obligations.ProbeNeedsSixBytes : Prop :=
  Config.params.minProbe = 6 ∧
    ∀ s : State, receiverLive s = true →
      numbered .parseProbe 4 ∧ exec .parseProbe s = .next { s with
        result := if s.fill < s.cfg.minProbe then .outcome .needMoreData else .pass
        cause := none
        wakes := 0 }

/-- R86 (operation 5): the HEAD test compares all of `buf[0]` with HEAD (R5: 0xF7); a failure is SyncError(Head,
SCAN_START_HEAD), which is 1 by R5; nothing else changes. -/
def Obligations.HeadTestWantsTheSentinel : Prop :=
  (Config.params.head = 0xF7 ∧ Config.params.scanStartHead = 1) ∧
    ∀ (s : State) (bytes : List Byte), receiverLive s = true → s.cfg.wf = true → Contents s bytes →
      s.cfg.minProbe ≤ bytes.length →
      numbered .parseHead 5 ∧ exec .parseHead s = .next { s with
        result := if bytes[0]? = some s.cfg.head then .pass else .syncError .head s.cfg.scanStartHead
        cause := none
        wakes := 0 }

/-- R87 (operation 6): the length test fails for `buf[2]` below L_MIN or above L_MAX, which by R5 is 0, 1, 2, with
SyncError(Len, SCAN_START_LEN), and yields `L` for every other value; nothing else changes. R87 has the passed HEAD test
as a precondition: that the answer is the same where `buf[0]` is not HEAD is the model's choice (log 12). -/
def Obligations.LengthTestRejectsBelowThree : Prop :=
  (Config.params.lMin = 3 ∧ Config.params.lMax = 255) ∧
    ∀ (s : State) (bytes : List Byte) (b : Byte), receiverLive s = true → s.cfg.wf = true → Contents s bytes →
      s.cfg.minProbe ≤ bytes.length → bytes[2]? = some b →
      numbered .parseLen 6 ∧ exec .parseLen s = .next { s with
        result :=
          if b.toNat < s.cfg.lMin ∨ s.cfg.lMax < b.toNat then .syncError .len s.cfg.scanStartLen else .length b.toNat
        cause := none
        wakes := 0 }

/-- R88 (operation 7): a window of `L + 3` bytes is waited for until it is whole, `L + 3` computed without wrap; nothing
else changes. -/
def Obligations.BoundsTestWaitsForTheWindow : Prop :=
  ∀ (s : State) (L : Nat), receiverLive s = true → s.cfg.wf = true → s.cfg.lMin ≤ L → L ≤ s.cfg.lMax →
    numbered (.parseBounds L) 7 ∧ exec (.parseBounds L) s = .next { s with
      result := if s.fill < L + 3 then .outcome .needMoreData else .pass
      cause := none
      wakes := 0 }

/-- R89 (operation 8): the fields of a window by their offsets; nothing else changes. -/
def Obligations.FieldsStandAtTheirOffsets : Prop :=
  ∀ (s : State) (bytes : List Byte) (L : Nat), receiverLive s = true → s.cfg.wf = true → Contents s bytes →
    s.cfg.lMin ≤ L → L ≤ s.cfg.lMax → L + 3 ≤ bytes.length → numbered (.parseFields L) 8 ∧
    ∃ b0 b1 b2 c : Byte, bytes[0]? = some b0 ∧ bytes[1]? = some b1 ∧ bytes[2]? = some b2 ∧ bytes[L + 2]? = some c ∧
      exec (.parseFields L) s = .next { s with
        result := .fields { head := b0, addr := b1, len := b2, payload := payloadOf bytes L, crc := c }
        cause := none
        wakes := 0 }

/-! ## Unit SYNC -/

/-- R100 (operation 9): the gate raises SyncError(Resync, SCAN_START_RESYNC), by R5 from 1 on, exactly when the flag is
set; nothing else changes, the flag included. -/
def Obligations.GateFollowsTheFlag : Prop :=
  Config.params.scanStartResync = 1 ∧
    ∀ s : State, receiverLive s = true → s.cfg.minProbe ≤ s.fill →
      numbered .syncGate 9 ∧ exec .syncGate s = .next { s with
        result := if s.resync = true then .syncError .resync s.cfg.scanStartResync else .pass
        cause := none
        wakes := 0 }

/-- R102 (operation 10): the scan answers the least index from `start` on that holds HEAD, or that there is none;
nothing else changes. -/
def Obligations.ScanFindsTheLeastHead : Prop :=
  Config.params.head = 0xF7 ∧
    ∀ (s : State) (bytes : List Byte) (start : Nat), receiverLive s = true → Contents s bytes →
      numbered (.syncScan start) 10 ∧
        ∃ r : Result, exec (.syncScan start) s = .next { s with result := r, cause := none, wakes := 0 } ∧
          ((∃ k : Nat, FirstHead s.cfg.head bytes start k ∧ r = .found k) ∨
            (NoHead s.cfg.head bytes start ∧ r = .notFound))

/-- R104 (operation 11): the error path clears the flag and discards up to the HEAD it finds, or sets the flag and
discards all; nothing else changes. It scans from 1 on, or from SCAN_START_HEAD, which may be 0 after a HEAD mismatch
(R6). -/
def Obligations.ErrorPathWritesFlagAndDiscards : Prop :=
  ∀ (s : State) (bytes : List Byte) (start : Nat) (cause : SyncCause), receiverLive s = true → Contents s bytes →
    s.cfg.minProbe ≤ bytes.length →
    1 ≤ start ∨ (cause = .head ∧ start = s.cfg.scanStartHead ∧ bytes[0]? ≠ some s.cfg.head) →
    numbered (.syncResolve start cause) 11 ∧
    ∃ (o : CheckOutcome) (flag : Bool), Resolves s.cfg.head bytes start o flag ∧
      exec (.syncResolve start cause) s = .next { s with
        resync := flag
        result := .outcome o
        cause := some cause
        wakes := 0 }

/-- R105: every discard that the error path, CHECK or APPLY answers is of at least 1 byte and at most all of them. -/
def Obligations.DiscardsAreNeverEmpty : Prop :=
  ∀ (s t : State) (i : Instr) (m : Nat), Sound s →
    (i = .check ∨ i = .apply ∨ ∃ (start : Nat) (cause : SyncCause), i = .syncResolve start cause) →
    exec i s = .next t → t.result = .outcome (.discardBytes m) → 1 ≤ m ∧ m ≤ s.fill

/-! ## CHECK -/

/-- R116 (operation 12): CHECK asks for more data and leaves the flag as it is; or takes the error path with the cause
and the scan start of the first test that fails; or accepts; one of these always applies. Nothing but the flag
changes. -/
def Obligations.CheckRunsItsSixSteps : Prop :=
  (Config.params.minProbe = 6 ∧ Config.params.head = 0xF7 ∧ Config.params.lMin = 3 ∧ Config.params.lMax = 255 ∧
    Config.params.scanStartResync = 1 ∧ Config.params.scanStartHead = 1 ∧ Config.params.scanStartLen = 3 ∧
    Config.params.scanStartCrc = .pastWindow) ∧
    ∀ (s : State) (bytes : List Byte), receiverLive s = true → s.cfg.wf = true → Contents s bytes →
      numbered .check 12 ∧
      (Waits s.cfg s.resync bytes →
        exec .check s = .next { s with result := .outcome .needMoreData, cause := none, wakes := 0 }) ∧
      (∀ (cause : SyncCause) (start : Nat), FailsWith s.cfg s.resync bytes cause start →
        ∃ (o : CheckOutcome) (flag : Bool), Resolves s.cfg.head bytes start o flag ∧
          exec .check s = .next { s with resync := flag, result := .outcome o, cause := some cause, wakes := 0 }) ∧
      (∀ L : Nat, s.resync = false → FrameAtFront s.cfg bytes L →
        exec .check s = .next { s with result := .outcome (.frameAccepted (L + 3)), cause := none, wakes := 0 }) ∧
      (Waits s.cfg s.resync bytes ∨ (∃ (cause : SyncCause) (start : Nat), FailsWith s.cfg s.resync bytes cause start) ∨
        (s.resync = false ∧ ∃ L : Nat, FrameAtFront s.cfg bytes L))

/-- R121 item 1: CHECK accepts exactly when the flag is clear and a whole CRC-valid frame stands at the front; the
outcome is then FrameAccepted(L + 3), and no state element changes. -/
def Obligations.CheckAcceptsExactlyFrames : Prop :=
  ∀ (s : State) (bytes : List Byte) (n : Nat), receiverLive s = true → s.cfg.wf = true →
    Contents s bytes →
    (exec .check s = .next { s with result := .outcome (.frameAccepted n), cause := none, wakes := 0 } ↔
      s.resync = false ∧ ∃ L : Nat, n = L + 3 ∧ FrameAtFront s.cfg bytes L) ∧
    ∀ t : State, exec .check s = .next t → t.result = .outcome (.frameAccepted n) →
      t = { s with result := .outcome (.frameAccepted n), cause := none, wakes := 0 }

/-- R118: CHECK always answers one outcome and one flag, and these are functions of the flag, the number of bytes and
the bytes alone, given the parameters. -/
def Obligations.CheckIsTotalAndDependsOnTheBytesAlone : Prop :=
  ∀ (s s' : State) (bytes : List Byte), receiverLive s = true → receiverLive s' = true →
    s.cfg.wf = true → Contents s bytes → Contents s' bytes → s.resync = s'.resync → s.cfg = s'.cfg →
    ∃ (o : CheckOutcome) (flag : Bool) (cause : Option SyncCause),
      exec .check s = .next { s with resync := flag, result := .outcome o, cause := cause, wakes := 0 } ∧
        exec .check s' = .next { s' with resync := flag, result := .outcome o, cause := cause, wakes := 0 }

/-- R106, R121 item 4: with the flag set and at least MIN_PROBE bytes, CHECK never accepts: it discards up to the first
HEAD from SCAN_START_RESYNC on (R5: an index of at least 1) and clears the flag, or discards all and keeps it set,
whatever stands at index 0. -/
def Obligations.SetFlagIsSticky : Prop :=
  ∀ (s : State) (bytes : List Byte), receiverLive s = true → s.cfg.wf = true → Contents s bytes →
    s.resync = true → s.cfg.minProbe ≤ bytes.length →
    ∃ (m : Nat) (flag : Bool), 1 ≤ m ∧
      exec .check s = .next { s with
        resync := flag
        result := .outcome (.discardBytes m)
        cause := some .resync
        wakes := 0 } ∧
      ((flag = false ∧ FirstHead s.cfg.head bytes s.cfg.scanStartResync m) ∨
        (flag = true ∧ m = bytes.length ∧ NoHead s.cfg.head bytes s.cfg.scanStartResync))

/-- R121 item 3: one byte of an intact frame that fills the buffer is changed. HEAD: discard, cause Head. ADDR: still
accepted. LEN: outside L_MIN .. L_MAX
(R5: below 3) discard, cause Len; legal and above `L` NeedMoreData; between, discard with cause Crc or a shorter
acceptance. PAYLOAD and CRC8: discard, cause Crc, always. POLY's constant term is not zero, as that of 0x07
(R5). -/
def Obligations.OneByteCorruption : Prop :=
  ∀ (s : State) (bytes : List Byte) (L i : Nat) (v : Byte), receiverLive s = true → s.cfg.wf = true →
    s.cfg.poly.getLsbD 0 = true → s.resync = false → FrameAtFront s.cfg bytes L → bytes.length = L + 3 → i < L + 3 →
      bytes[i]? ≠ some v → Contents s (bytes.set i v) →
    ∃ t : State, exec .check s = .next t ∧
      (i = 0 → t.cause = some .head ∧ ∃ m : Nat, t.result = .outcome (.discardBytes m)) ∧
      (i = 1 → t.result = .outcome (.frameAccepted (L + 3))) ∧
      (i = 2 → v.toNat < s.cfg.lMin ∨ s.cfg.lMax < v.toNat →
        t.cause = some .len ∧ ∃ m : Nat, t.result = .outcome (.discardBytes m)) ∧
      (i = 2 → L < v.toNat → v.toNat ≤ s.cfg.lMax → t.result = .outcome .needMoreData) ∧
      (i = 2 → s.cfg.lMin ≤ v.toNat → v.toNat < L →
        (t.cause = some .crc ∧ ∃ m : Nat, t.result = .outcome (.discardBytes m)) ∨
          t.result = .outcome (.frameAccepted (v.toNat + 3))) ∧
      (3 ≤ i → t.cause = some .crc ∧ ∃ m : Nat, t.result = .outcome (.discardBytes m))

/-- R120 (a), (b): with more bytes behind, an acceptance stays that acceptance, and a discard up to a found HEAD stays
that discard. -/
def Obligations.AnswersAreStableUnderMoreData : Prop :=
  ∀ (s s' t : State) (bytes more : List Byte), receiverLive s = true → receiverLive s' = true →
    s.cfg.wf = true → Contents s bytes → Contents s' (bytes ++ more) → s.resync = s'.resync → s.cfg = s'.cfg →
      exec .check s = .next t →
    ((∃ m : Nat, t.result = .outcome (.frameAccepted m)) ∨
      (t.resync = false ∧ ∃ k : Nat, t.result = .outcome (.discardBytes k))) →
    exec .check s' = .next { s' with resync := t.resync, result := t.result, cause := t.cause, wakes := 0 }

/-! ## The receive engine -/

/-- R131: the bytes are written behind the ones that are there, which keep their indexes; only `buf` and `fill`
change. With no byte or too many it stops. -/
def Obligations.AppendWritesBehind : Prop :=
  ∀ (s : State) (bytes data : List Byte), receiverLive s = true → s.draining = false → Contents s bytes →
    (1 ≤ data.length → bytes.length + data.length ≤ s.cfg.bufCap →
      ∃ m : Memory, exec (.rxAppend data) s = .next { s with
          buf := m
          fill := bytes.length + data.length
          result := .none
          cause := none
          wakes := 0 } ∧
        (∀ a : Nat, a < bytes.length ∨ bytes.length + data.length ≤ a → m.read a = s.buf.read a) ∧
        (∀ a : Nat, a < data.length → m.read (bytes.length + a) = data[a]?)) ∧
    (data.length = 0 ∨ s.cfg.bufCap < bytes.length + data.length → exec (.rxAppend data) s = .fault .appendSize)

/-- R132: the byte that was at `m + i` is at `i`, in the same order; only `buf` and `fill` change. With `m` outside
1 .. `fill` it stops. -/
def Obligations.ConsumeMovesToTheFront : Prop :=
  ∀ (s : State) (bytes : List Byte) (m : Nat), receiverLive s = true → Contents s bytes →
    (1 ≤ m → m ≤ bytes.length →
      ∃ b : Memory, exec (.consume m) s = .next { s with
          buf := b
          fill := bytes.length - m
          result := .none
          cause := none
          wakes := 0 } ∧
        (∀ a : Nat, a + m < bytes.length → b.read a = s.buf.read (a + m)) ∧
        (∀ a : Nat, bytes.length ≤ a + m → b.read a = none)) ∧
    (m = 0 ∨ bytes.length < m → exec (.consume m) s = .fault .consumeRange)

/-- R133 (operation 15): DELIVER copies ADDR, LEN and PAYLOAD of the accepted frame into the slot, marks it valid
whether or not it was, and raises the wake-up event once; nothing else changes. -/
def Obligations.DeliverFillsTheSlot : Prop :=
  ∀ (s : State) (bytes : List Byte) (L : Nat) (a : Byte), receiverLive s = true → s.cfg.wf = true →
    Contents s bytes → FrameAtFront s.cfg bytes L → bytes[1]? = some a →
    numbered (.deliver L) 15 ∧ exec (.deliver L) s = .next { s with
      msg := { addr := a, len := BitVec.ofNat 8 L, payload := payloadOf bytes L }
      msgValid := true
      result := .none
      cause := none
      wakes := 1 }

/-- R134: an APPLY whose CHECK waits changes nothing; a DRAIN under way ends with it (the model's field `draining`,
log 9). -/
def Obligations.ApplyWaitsAndChangesNothing : Prop :=
  ∀ (s : State) (bytes : List Byte), receiverLive s = true → s.cfg.wf = true → Contents s bytes →
    Waits s.cfg s.resync bytes →
    exec .apply s = .next { s with
      draining := false
      result := .outcome .needMoreData
      cause := none
      wakes := 0 }

/-- R134: an APPLY that accepts delivers the frame, counts all its `L + 3` bytes as read modulo 2^CTR_W (R5: 32),
removes them and raises the wake-up event once; nothing else changes but the model's field `draining` (log 9). -/
def Obligations.ApplyAcceptsDeliversCountsConsumes : Prop :=
  ∀ (s : State) (bytes : List Byte) (L : Nat) (a : Byte), receiverLive s = true → s.cfg.wf = true →
    Contents s bytes → s.resync = false → FrameAtFront s.cfg bytes L → bytes[1]? = some a →
    ∃ t : State, exec .apply s = .next t ∧ Contents t (bytes.drop (L + 3)) ∧
      t = { s with
        buf := t.buf
        fill := bytes.length - (L + 3)
        bytesRead := (s.bytesRead + (L + 3)) % 2 ^ s.cfg.ctrW
        msg := { addr := a, len := BitVec.ofNat 8 L, payload := payloadOf bytes L }
        msgValid := true
        draining := s.draining && decide (bytes.length ≠ L + 3)
        result := .outcome (.frameAccepted (L + 3))
        cause := none
        wakes := 1 }

/-- R134: an APPLY whose CHECK fails counts the discarded bytes as invalid modulo 2^CTR_W (R5: 32) and removes them;
beside the flag nothing else changes but the model's field `draining` (log 9). -/
def Obligations.ApplyDiscardsCountsConsumes : Prop :=
  ∀ (s : State) (bytes : List Byte) (cause : SyncCause) (start : Nat), receiverLive s = true → s.cfg.wf = true →
    Contents s bytes → FailsWith s.cfg s.resync bytes cause start →
    ∃ (t : State) (m : Nat), exec .apply s = .next t ∧ Resolves s.cfg.head bytes start (.discardBytes m) t.resync ∧
      Contents t (bytes.drop m) ∧
      t = { s with
        buf := t.buf
        fill := bytes.length - m
        resync := t.resync
        bytesInvalid := (s.bytesInvalid + m) % 2 ^ s.cfg.ctrW
        draining := s.draining && decide (m ≠ bytes.length)
        result := .outcome (.discardBytes m)
        cause := some cause
        wakes := 0 }

/-- R107: after the discard and the consume of one APPLY either the flag is clear and a HEAD stands at the front of a
buffer that is not empty, or the flag is set and the buffer is empty. -/
def Obligations.DiscardLeavesHeadOrNothing : Prop :=
  ∀ (s t : State) (m : Nat), Sound s → exec .apply s = .next t → t.result = .outcome (.discardBytes m) →
    (t.resync = false ∧ t.fill = s.fill - m ∧ 1 ≤ t.fill ∧ t.buf.read 0 = some s.cfg.head) ∨
      (t.resync = true ∧ m = s.fill ∧ t.fill = 0)

/-- R135, R139: under `ATOMICITY = drain` a DRAIN always ends; what is left is a tail of what was there, on which CHECK
waits, hence fewer than FRAME_MAX bytes (R5: at most 257), and fewer than MIN_PROBE (R5: at most 5) with the flag set.
Only the fields of the receive path change, and each byte that left is in one of the two counters. It is APPLY repeated:
where the first APPLY ends the loop it is that APPLY without its result, and where the loop goes on it is that APPLY
followed by a DRAIN, with the wake-up events of both (`draining`, `wakes`: the model's fields, log 9, log 15). -/
def Obligations.DrainRunsUntilCheckWaits : Prop :=
  ∀ (s : State) (bytes : List Byte), Sound s → receiverLive s = true → s.cfg.atomicity = .drain → Contents s bytes →
    (∃ (t : State) (rest : List Byte), exec .drain s = .next t ∧ Contents t rest ∧ rest <:+ bytes ∧
      Waits t.cfg t.resync rest ∧ t.fill < s.cfg.frameMax ∧ (t.resync = true → t.fill < s.cfg.minProbe) ∧
        accounted t = accounted s ∧
      t = { s with
        buf := t.buf
        fill := t.fill
        resync := t.resync
        bytesRead := t.bytesRead
        bytesInvalid := t.bytesInvalid
        msg := t.msg
        msgValid := t.msgValid
        draining := false
        result := .none
        cause := t.cause
        wakes := t.wakes }) ∧
    ∃ u : State, exec .apply s = .next u ∧
      (u.result = .outcome .needMoreData ∨ u.fill = 0 →
        exec .drain s = .next { u with draining := false, result := .none }) ∧
      (u.result ≠ .outcome .needMoreData → u.fill ≠ 0 →
        ∃ v : State, exec .drain u = .next v ∧ exec .drain s = .next { v with wakes := u.wakes + v.wakes })

/-- R38, R135: under `ATOMICITY = iteration` a DRAIN takes the lock for one APPLY at a time: it does what APPLY does
inside a DRAIN that is under way, and returns nothing. That the rest is remembered in the field `draining` is the
model's choice (log 9). -/
def Obligations.DrainIteratesApply : Prop :=
  ∀ s : State, Sound s → receiverLive s = true → s.cfg.atomicity = .iteration →
    ∃ t : State, exec .apply { s with draining := true } = .next t ∧
      exec .drain s = .next { t with result := .none }

/-- R136, R66: a read that brought data is an append followed by a DRAIN (where no DRAIN is under way, log 9). The row
FRAME is such a read of the frame's bytes, legal frame or not (the model's choice, log 3). -/
def Obligations.ReadWithDataAppendsThenDrains : Prop :=
  (∀ (s t : State) (data : List Byte), s.draining = false → exec (.rxAppend data) s = .next t →
      exec (.rxEvent (.data data)) s = exec .drain t) ∧
    ∀ (s t : State) (addr len crc : Byte) (payload : List Byte), s.draining = false →
      exec (.rxAppend (s.cfg.head :: addr :: len :: (payload ++ [crc]))) s = .next t →
      exec (.frame addr len payload crc) s = exec .drain t

/-- R136, R160: a read that would block changes nothing; end-of-stream and an I/O error set `rx_halted` and nothing
else, and raise the wake-up event exactly when EOF_SETS_EXIT holds (where no DRAIN is under way, log 9). -/
def Obligations.ReadWithoutDataIsIdleOrFatal : Prop :=
  ∀ s : State, receiverLive s = true → s.draining = false →
    exec (.rxEvent .wouldBlock) s = .next { s with result := .none, cause := none, wakes := 0 } ∧
      ∀ r : ReadResult, r = .eof ∨ r = .err →
        exec (.rxEvent r) s = .next { s with
          rxHalted := true
          result := .none
          cause := none
          wakes := if s.cfg.eofSetsExit = true then 1 else 0 }

/-- R118, R131, R135, R136, R139: on every sound state with a live receiver CHECK, APPLY, DRAIN, and appends, reads and
frames that fit, complete, whichever grain of atomicity holds and whether or not a DRAIN is under way (log 9, and log 3
for FRAME). -/
def Obligations.ReceiveOperationsComplete : Prop :=
  ∀ (s : State) (i : Instr), Sound s → receiverLive s = true →
    (i = .check ∨ i = .apply ∨ i = .drain ∨ i = .rxEvent .wouldBlock ∨ i = .rxEvent .eof ∨ i = .rxEvent .err ∨
      (∃ data : List Byte, 1 ≤ data.length ∧ s.fill + data.length ≤ s.cfg.bufCap ∧
        (i = .rxAppend data ∨ i = .rxEvent (.data data))) ∨
      (∃ (addr len crc : Byte) (payload : List Byte), s.fill + (payload.length + 4) ≤ s.cfg.bufCap ∧
        i = .frame addr len payload crc)) →
    ∃ t : State, exec i s = .next t

/-! ## Where operations have no step -/

/-- R130, R160, R161, R169, U8, U9, U14: without an engine and in Freed every operation but RESET is refused; in Joined
and after a transport-fatal event no operation of RXE has a step. The names of the stops are the model's (log 8). So it
is that VERIFY and the PARSE and SYNC operations, invoked alone, have a step only where RXE has (log 20), and that the
rows FRAME and OUTCOME.* are operations of RXE (log 3). -/
def Obligations.OperationsWithoutStepStop : Prop :=
  ∀ (i : Instr) (s : State), isReset i = false →
    (s.constructed = false → exec i s = .refused .engineAbsent) ∧
    (s.constructed = true → s.runState = .freed → exec i s = .refused .engineFreed) ∧
    (s.constructed = true → s.runState = .joined → receiverOp i = true → exec i s = .fault .receiverReturned) ∧
    (s.constructed = true → s.runState = .running ∨ s.runState = .exitRequested → s.rxHalted = true →
      receiverOp i = true → exec i s = .fault .receiverHalted)

/-- R8, R31, R75, R88, R89, R101, R104, R133: an operation invoked alone stops where it would read a byte that has no
value or where an operand is outside its range. The names of the stops are the model's (log 12, log 13). -/
def Obligations.OperandsOutOfRangeStop : Prop :=
  ∀ s : State, receiverLive s = true →
    (s.fill = 0 → exec .parseHead s = .fault .undefinedByte) ∧
    (s.fill < 3 → exec .parseLen s = .fault .undefinedByte) ∧
    (∀ L : Nat, L < s.cfg.lMin ∨ s.cfg.lMax < L →
      exec (.crc8Verify L) s = .fault .lengthRange ∧ exec (.parseBounds L) s = .fault .lengthRange ∧
        exec (.parseFields L) s = .fault .lengthRange ∧ exec (.deliver L) s = .fault .noAcceptedFrame) ∧
    (∀ L : Nat, s.cfg.lMin ≤ L → L ≤ s.cfg.lMax → s.fill < L + s.cfg.frameOverhead →
      exec (.crc8Verify L) s = .fault .undefinedByte ∧ exec (.parseFields L) s = .fault .undefinedByte ∧
        exec (.deliver L) s = .fault .noAcceptedFrame) ∧
    (∀ (start : Nat) (cause : SyncCause),
      s.fill < s.cfg.minProbe ∨
        (start = 0 ∧ (cause ≠ .head ∨ s.cfg.scanStartHead ≠ 0 ∨ s.buf.read 0 = some s.cfg.head)) →
      exec (.syncResolve start cause) s = .fault .resolveRange)

/-! ## The consumer -/

/-- R137: a message that waits is returned and `msg_valid` cleared, in every lifecycle state before Freed; nothing
else changes. That the slot keeps its content while it is not valid is the model's choice (log 7). -/
def Obligations.PullTakesTheMessage : Prop :=
  ∀ s : State, engineLive s = true → s.msgValid = true →
    exec .pull s = .next { s with msgValid := false, result := .message s.msg, cause := none, wakes := 0 }

/-- R42, R137, R170: without a message PULL returns the shutdown sentinel exactly when the engine is shutting down, so
after EXIT_REQ no PULL is held; else the caller is held, which the model counts (log 10). Nothing else changes. -/
def Obligations.PullWithoutMessage : Prop :=
  ∀ s : State, engineLive s = true → s.msgValid = false →
    (s.runState = .exitRequested ∨ s.runState = .joined ∨ (s.rxHalted = true ∧ s.cfg.eofSetsExit = true) →
      exec .pull s = .next { s with result := .shutdown, cause := none, wakes := 0 }) ∧
    (s.runState = .running → s.rxHalted = false ∨ s.cfg.eofSetsExit = false →
      exec .pull s = .next { s with held := s.held + 1, result := .held, cause := none, wakes := 0 })

/-- R43, R63: a held PULL that re-examines its condition takes the message, or learns of shutdown, or stays held;
without a held caller nothing happens. That MESSAGE stands for this is the model's choice (log 3, log 10), and so is
that the slot keeps its content when the message was taken (log 7). -/
def Obligations.MessageAnswersOneHeldCaller : Prop :=
  ∀ s : State, engineLive s = true →
    (s.held = 0 → exec .message s = .next { s with result := .none, cause := none, wakes := 0 }) ∧
    (0 < s.held → s.msgValid = true →
      exec .message s = .next { s with
        msgValid := false
        held := s.held - 1
        result := .message s.msg
        cause := none
        wakes := 0 }) ∧
    (0 < s.held → s.msgValid = false → shuttingDown s = true →
      exec .message s = .next { s with held := s.held - 1, result := .shutdown, cause := none, wakes := 0 }) ∧
    (0 < s.held → s.msgValid = false → shuttingDown s = false →
      exec .message s = .next { s with result := .held, cause := none, wakes := 0 })

/-- R138 (operation 20): GET_STATS returns the three counters of one instant, in their order, and changes nothing. -/
def Obligations.StatisticsAreASnapshot : Prop :=
  ∀ s : State, engineLive s = true →
    numbered .getStats 20 ∧ exec .getStats s = .next { s with
      result := .stats s.bytesWrite s.bytesRead s.bytesInvalid
      cause := none
      wakes := 0 }

/-- R20, R62: on the status port the transmit path drives index 0 with any value of CTR_W bits, the block drives the
other two. That the row STATS stands for this transfer is the model's choice (log 3). -/
def Obligations.StatusPortTakesTransmitCounter : Prop :=
  ∀ (s : State) (w : Counter), engineLive s = true →
    exec (.stats w) s = .next { s with
      bytesWrite := w % 2 ^ s.cfg.ctrW
      result := .stats (w % 2 ^ s.cfg.ctrW) s.bytesRead s.bytesInvalid
      cause := none
      wakes := 0 }

/-! ## Lifecycle and reset -/

/-- R169: EXIT_REQ in Running, JOIN in ExitRequested with RXE between operations, FREE in Joined, each with its effect
and nothing else; elsewhere they are refused (log 8). That JOIN is refused while a DRAIN is under way (log 9), that the
slot keeps its content after FREE (log 7) and that the held callers stay counted (log 10) is the model's choice. -/
def Obligations.LifecycleMovesInOrder : Prop :=
  ∀ s : State, engineLive s = true →
    (s.runState = .running →
      exec .exitReq s = .next { s with runState := .exitRequested, result := .none, cause := none, wakes := 1 }) ∧
    (s.runState ≠ .running → exec .exitReq s = .refused .lifecycleOrder) ∧
    (s.runState = .exitRequested → s.draining = false →
      exec .join s = .next { s with runState := .joined, result := .none, cause := none, wakes := 0 }) ∧
    (s.runState = .exitRequested → s.draining = true → exec .join s = .refused .receiverBusy) ∧
    (s.runState ≠ .exitRequested → exec .join s = .refused .lifecycleOrder) ∧
    (s.runState = .joined →
      exec .free s = .next { s with
        runState := .freed
        msgValid := false
        result := .none
        cause := none
        wakes := 0 }) ∧
    (s.runState ≠ .joined → exec .free s = .refused .lifecycleOrder)

/-- R180: RESET in any state makes a new engine in the reset state or none at all, as the environment chooses; nothing
carries over but the parameters and the invocations to come (log 4, log 11). -/
def Obligations.ConstructionMakesAFreshEngineOrNone : Prop :=
  ∀ (s : State) (d : BitVec 32) (k : DescriptorKind),
    (∃ t : State, exec (.reset d k .succeeds) s = .next t ∧ t.constructed = true ∧ t.descriptor = d ∧ t.kind = k ∧
      t.fill = 0 ∧ t.resync = false ∧ t.bytesRead = 0 ∧ t.bytesInvalid = 0 ∧ t.bytesWrite = 0 ∧ t.msgValid = false ∧
      t.runState = .running ∧ t.rxHalted = false ∧ t.draining = false ∧ t.held = 0 ∧ t.cfg = s.cfg ∧
      t.pending = s.pending ∧ t.result = .engine) ∧
    ∃ t : State, exec (.reset d k .fails) s = .next t ∧ t.constructed = false ∧ t.pending = s.pending ∧
      t.result = .noEngine

/-- R27: the state after reset; and the parameters with the values of R5, of which EOF_SETS_EXIT and the magnitude of
SHUTDOWN_LEN are OPEN. -/
def Obligations.ResetLeavesTheStatedValues : Prop :=
  State.reset.fill = 0 ∧ State.reset.resync = false ∧ State.reset.bytesRead = 0 ∧ State.reset.bytesInvalid = 0 ∧
    State.reset.bytesWrite = 0 ∧ State.reset.msgValid = false ∧ State.reset.runState = .running ∧
    State.reset.rxHalted = false ∧ State.reset.constructed = true ∧
    State.reset.cfg = { State.reset.cfg with
      head := 0xF7, poly := 0x07, crcInit := 0x00, crcXorOut := 0x00, crcReflect := .none
      lMin := 3, lMax := 255, frameOverhead := 3, minProbe := 6, bufCap := 4096, msgCap := 512
      ctrW := 32, outcomeW := 16
      scanStartResync := 1, scanStartHead := 1, scanStartLen := 3, scanStartCrc := .pastWindow
      atomicity := .iteration } ∧
    State.reset.cfg.frameMax = 258 ∧ State.reset.cfg.payloadMax = 254 ∧ State.reset.cfg.shutdownLen < 0

/-! ## The format rows -/

/-- R50, R66, R121 item 1, R141: the frame that the macro builds from a payload of L_MIN - 1 to PAYLOAD_MAX (R5: 2 to
254) bytes, received in sync into an empty buffer, is accepted, counted whole and delivered, and the next PULL returns
it. That the row FRAME stands for the arrival of these bytes in one read is the model's choice (log 3). -/
def Obligations.IntactFrameIsDelivered : Prop :=
  ∀ (s : State) (a : Byte) (payload : List Byte), Sound s → receiverLive s = true → s.fill = 0 → s.resync = false →
    s.draining = false → s.cfg.lMin ≤ payload.length + 1 → payload.length ≤ s.cfg.payloadMax →
    ∃ t u : State, exec (frameOf s.cfg a payload) s = .next t ∧
      t = { s with
        buf := t.buf
        bytesRead := (s.bytesRead + (payload.length + 4)) % 2 ^ s.cfg.ctrW
        msg := { addr := a, len := BitVec.ofNat 8 (payload.length + 1), payload := payload }
        msgValid := true
        result := .none
        cause := none
        wakes := 1 } ∧
      exec .pull t = .next u ∧
      u.result = .message { addr := a, len := BitVec.ofNat 8 (payload.length + 1), payload := payload }

/-- R58, R119, R134: what each outcome of CHECK obliges its caller to, who is APPLY: the row of an outcome is the APPLY
that answers it, and stops where APPLY answers another. NeedMoreData: nothing. FrameAccepted(n): deliver, count,
consume. DiscardBytes(n): count, consume. That the rows stand for this is the model's choice (log 3), `draining` is its
field (log 9). -/
def Obligations.OutcomesObligeTheCaller : Prop :=
  ∀ (s : State) (bytes : List Byte), receiverLive s = true → s.cfg.wf = true → Contents s bytes →
    (Waits s.cfg s.resync bytes →
      exec .outcomeNeedMoreData s = .next { s with
        draining := false
        result := .outcome .needMoreData
        cause := none
        wakes := 0 }) ∧
    (∀ (L : Nat) (a : Byte), s.resync = false → FrameAtFront s.cfg bytes L → bytes[1]? = some a →
      ∃ m : Memory, exec (.outcomeFrameAccepted (L + 3)) s = .next { s with
          buf := m
          fill := bytes.length - (L + 3)
          bytesRead := (s.bytesRead + (L + 3)) % 2 ^ s.cfg.ctrW
          msg := { addr := a, len := BitVec.ofNat 8 L, payload := payloadOf bytes L }
          msgValid := true
          draining := s.draining && decide (bytes.length ≠ L + 3)
          result := .outcome (.frameAccepted (L + 3))
          cause := none
          wakes := 1 } ∧
        ∀ j : Nat, m.read j = (bytes.drop (L + 3))[j]?) ∧
    (∀ (cause : SyncCause) (start n : Nat) (flag : Bool), FailsWith s.cfg s.resync bytes cause start →
      Resolves s.cfg.head bytes start (.discardBytes n) flag →
      ∃ m : Memory, exec (.outcomeDiscardBytes n) s = .next { s with
          buf := m
          fill := bytes.length - n
          resync := flag
          bytesInvalid := (s.bytesInvalid + n) % 2 ^ s.cfg.ctrW
          draining := s.draining && decide (n ≠ bytes.length)
          result := .outcome (.discardBytes n)
          cause := some cause
          wakes := 0 } ∧
        ∀ j : Nat, m.read j = (bytes.drop n)[j]?) ∧
    ∀ (o : CheckOutcome) (t : State), exec .apply s = .next t →
      (t.result = .outcome o → exec (outcomeInstr o) s = .next t) ∧
      (t.result ≠ .outcome o → exec (outcomeInstr o) s = .fault .outcomeNotAnswered)

/-- R119, R134: APPLY is CHECK followed by what its outcome obliges to: nothing; DELIVER, the count of the bytes read
and CONSUME; or the count of the invalid bytes and CONSUME. It returns CHECK's outcome; a DRAIN under way ends where
CHECK waits or nothing is left (the model's field `draining`, log 9; outputs: log 15). -/
def Obligations.ApplyIsCheckThenTheOutcome : Prop :=
  ∀ (s t : State) (o : CheckOutcome), Sound s → exec .check s = .next t → t.result = .outcome o →
    ∃ u : State, exec .apply s = .next u ∧ u.result = .outcome o ∧ u.cause = t.cause ∧
      (o = .needMoreData → u = { t with draining := false }) ∧
      (∀ m : Nat, o = .frameAccepted m →
        ∃ v w : State, exec (.deliver (m - 3)) t = .next v ∧
          exec (.consume m) { v with bytesRead := (v.bytesRead + m) % 2 ^ s.cfg.ctrW } = .next w ∧
          u = { w with
            draining := s.draining && decide (w.fill ≠ 0)
            result := t.result
            cause := t.cause
            wakes := v.wakes }) ∧
      (∀ m : Nat, o = .discardBytes m →
        ∃ w : State, exec (.consume m) { t with bytesInvalid := (t.bytesInvalid + m) % 2 ^ s.cfg.ctrW } = .next w ∧
          u = { w with
            draining := s.draining && decide (w.fill ≠ 0)
            result := t.result
            cause := t.cause })

/-! ## Encoding and the step -/

/-- R50, R60, R64 and the model's operand layout (log 1): decoding the packet of a well-formed instruction gives it
back, for every choice of the parameters that keeps the relations of R6 (R5). -/
def Obligations.DecodingUndoesEncoding : Prop :=
  ∀ (cfg : Params) (i : Instr), cfg.wf = true → WellFormed cfg i = true → decode cfg (encode cfg i) = .ok i

/-- R59, R60: the numeric form of every outcome in its range reads back as that outcome, and the ranges are disjoint:
the sign bit is set exactly for a discard, and the word is 0 exactly for NeedMoreData; for every width OUTCOME_W that
holds the outcomes, which is a relation of `cfg.wf`, and of which 16 is the default (R5). -/
def Obligations.OutcomePortReadsBackUniquely : Prop :=
  Config.params.outcomeW = 16 ∧
    ∀ (cfg : Params) (o : CheckOutcome), cfg.wf = true → WellFormed cfg (outcomeInstr o) = true →
      decode cfg (.outcome (outcomePort cfg.outcomeW o).toNat) = .ok (outcomeInstr o) ∧
        ((outcomePort cfg.outcomeW o).getLsbD (cfg.outcomeW - 1) = true ↔ ∃ n : Nat, o = .discardBytes n) ∧
        (outcomePort cfg.outcomeW o = 0 ↔ o = .needMoreData)

/-- R64, R50, R60, R62, R63: every row of the opcode table is read from its word: each operation from its number with
the operands in the model's layout (log 1), and each format from its own packet. The reading of a word without operands
(zero operands, the low 5 bits, the width picks the format) is the model's (log 2). -/
def Obligations.TableWordsDecodeToTheirRows : Prop :=
  (∀ (cfg : Params) (a b c d e : Byte) (data : List Byte),
    decode cfg (.op 0 [a]) = .ok (.crc8Bit a) ∧
    decode cfg (.op 1 [a, b]) = .ok (.crc8Byte a b) ∧
    decode cfg (.op 2 data) = .ok (.crc8Block data) ∧
    decode cfg (.op 3 [a]) = .ok (.crc8Verify a.toNat) ∧
    decode cfg (.op 4 []) = .ok .parseProbe ∧
    decode cfg (.op 5 []) = .ok .parseHead ∧
    decode cfg (.op 6 []) = .ok .parseLen ∧
    decode cfg (.op 7 [a]) = .ok (.parseBounds a.toNat) ∧
    decode cfg (.op 8 [a]) = .ok (.parseFields a.toNat) ∧
    decode cfg (.op 9 []) = .ok .syncGate ∧
    decode cfg (.op 10 [a, b]) = .ok (.syncScan (a.toNat + 256 * b.toNat)) ∧
    decode cfg (.op 11 [a, b, 0]) = .ok (.syncResolve (a.toNat + 256 * b.toNat) .resync) ∧
    decode cfg (.op 11 [a, b, 1]) = .ok (.syncResolve (a.toNat + 256 * b.toNat) .head) ∧
    decode cfg (.op 11 [a, b, 2]) = .ok (.syncResolve (a.toNat + 256 * b.toNat) .len) ∧
    decode cfg (.op 11 [a, b, 3]) = .ok (.syncResolve (a.toNat + 256 * b.toNat) .crc) ∧
    decode cfg (.op 12 []) = .ok .check ∧
    decode cfg (.op 13 data) = .ok (.rxAppend data) ∧
    decode cfg (.op 14 [a, b]) = .ok (.consume (a.toNat + 256 * b.toNat)) ∧
    decode cfg (.op 15 [a]) = .ok (.deliver a.toNat) ∧
    decode cfg (.op 16 []) = .ok .apply ∧
    decode cfg (.op 17 []) = .ok .drain ∧
    decode cfg (.op 18 [0]) = .ok (.rxEvent .wouldBlock) ∧
    decode cfg (.op 18 [1]) = .ok (.rxEvent .eof) ∧
    decode cfg (.op 18 [2]) = .ok (.rxEvent .err) ∧
    decode cfg (.op 18 (3 :: data)) = .ok (.rxEvent (.data data)) ∧
    decode cfg (.op 19 []) = .ok .pull ∧
    decode cfg (.op 20 []) = .ok .getStats ∧
    decode cfg (.op 21 []) = .ok .exitReq ∧
    decode cfg (.op 22 []) = .ok .join ∧
    decode cfg (.op 23 []) = .ok .free ∧
    decode cfg (.op 24 [a, b, c, d, 0, 0]) = .ok (.reset (d ++ c ++ b ++ a) .liveBus .succeeds) ∧
    decode cfg (.op 24 [a, b, c, d, 0, 1]) = .ok (.reset (d ++ c ++ b ++ a) .liveBus .fails) ∧
    decode cfg (.op 24 [a, b, c, d, 1, 0]) = .ok (.reset (d ++ c ++ b ++ a) .fileBacked .succeeds) ∧
    decode cfg (.op 24 [a, b, c, d, 1, 1]) = .ok (.reset (d ++ c ++ b ++ a) .fileBacked .fails) ∧
    decode cfg (.wire [cfg.head, a, 3, b, c, d]) = .ok (.frame a 3 [b, c] d) ∧
    decode cfg (.wire [cfg.head, a, 4, b, c, d, e]) = .ok (.frame a 4 [b, c, d] e) ∧
    decode cfg .message = .ok .message) ∧
  (∀ (cfg : Params) (w r i : Counter), w < 2 ^ cfg.ctrW → decode cfg (.status w r i) = .ok (.stats w)) ∧
  decodeTableWord 8 0x00 = some (.crc8Bit 0) ∧ decodeTableWord 8 0x01 = some (.crc8Byte 0 0) ∧
  decodeTableWord 8 0x02 = some (.crc8Block []) ∧ decodeTableWord 8 0x03 = some (.crc8Verify 0) ∧
  decodeTableWord 8 0x04 = some .parseProbe ∧ decodeTableWord 8 0x05 = some .parseHead ∧
  decodeTableWord 8 0x06 = some .parseLen ∧ decodeTableWord 8 0x07 = some (.parseBounds 0) ∧
  decodeTableWord 8 0x08 = some (.parseFields 0) ∧ decodeTableWord 8 0x09 = some .syncGate ∧
  decodeTableWord 8 0x0A = some (.syncScan 0) ∧ decodeTableWord 8 0x0B = some (.syncResolve 0 .resync) ∧
  decodeTableWord 8 0x0C = some .check ∧ decodeTableWord 8 0x0D = some (.rxAppend []) ∧
  decodeTableWord 8 0x0E = some (.consume 0) ∧ decodeTableWord 8 0x0F = some (.deliver 0) ∧
  decodeTableWord 8 0x10 = some .apply ∧ decodeTableWord 8 0x11 = some .drain ∧
  decodeTableWord 8 0x12 = some (.rxEvent .wouldBlock) ∧ decodeTableWord 8 0x13 = some .pull ∧
  decodeTableWord 8 0x14 = some .getStats ∧ decodeTableWord 8 0x15 = some .exitReq ∧
  decodeTableWord 8 0x16 = some .join ∧ decodeTableWord 8 0x17 = some .free ∧
  decodeTableWord 8 0x18 = some (.reset 0 .liveBus .succeeds) ∧ decodeTableWord 8 0xF7 = some (.frame 0 0 [] 0) ∧
  decodeTableWord 16 0x0000 = some .outcomeNeedMoreData ∧
  decodeTableWord 16 0x0006 = some (.outcomeFrameAccepted 6) ∧
  decodeTableWord 16 0x0102 = some (.outcomeFrameAccepted 258) ∧
  decodeTableWord 16 0xFFFF = some (.outcomeDiscardBytes 1) ∧
  decodeTableWord 16 0xF000 = some (.outcomeDiscardBytes 4096) ∧
  decodeTableWord 96 0x000000010000000600000007 = some (.stats 7) ∧ decodeTableWord 0 0 = some .message

/-- A step runs the instruction that the next pending packet decodes to, on the state without that packet; a packet that
is no instruction is refused; and a word placed by `withFetchWord` is what the next step runs (log 2). It
decodes under the state's parameters; the table's words are laid out for the HEAD, CTR_W and OUTCOME_W of R5. -/
def Obligations.StepRunsTheDecodedInstruction : Prop :=
  (∀ (s : State) (p : Packet) (rest : List Packet) (i : Instr), s.pending = p :: rest →
      decode s.cfg p = .ok i → step s = exec i { s with pending := rest }) ∧
    (∀ (s : State) (p : Packet) (rest : List Packet) (e : DecodeError), s.pending = p :: rest →
      decode s.cfg p = .error e → step s = .refused (.undecodable e)) ∧
    ∀ (s : State) (nbits w : Nat) (i : Instr), s.cfg.head = 0xF7 → s.cfg.ctrW = 32 →
      s.cfg.outcomeW = 16 →
      decodeTableWord nbits w = some i → step (s.withFetchWord nbits w) = exec i s

/-- R11, R135: with nothing invoked the block stays as it is, except that RXE goes on with a DRAIN under way, one APPLY
at a time (the model's choice, log 2, log 9). -/
def Obligations.IdleStepsOnlyContinueADrain : Prop :=
  ∀ s : State, s.pending = [] →
    (s.draining = false ∨ receiverLive s = false → step s = .next s) ∧
    (s.draining = true → receiverLive s = true → Sound s →
      ∃ t : State, exec .apply s = .next t ∧ step s = .next t)

/-! ## The whole machine -/

/-- R28, R6: every step keeps the invariant: admissible parameters, a buffer in canonical form that holds exactly the
`fill` valid bytes within its capacity, a slot that holds a frame's message when it is valid, and counters of CTR_W
bits. -/
def Obligations.StepKeepsTheInvariant : Prop :=
  ∀ s t : State, Sound s → step s = .next t → Sound t

/-- R27, R28: the invariant holds after reset. -/
def Obligations.ResetMeetsTheInvariant : Prop :=
  Sound State.reset

/-- R18, R19, R28 item 7, R29, R168: no operation but RESET moves the lifecycle back, clears `rx_halted`, unmakes the
engine or changes what was fixed at construction. -/
def Obligations.NothingButResetGoesBack : Prop :=
  ∀ (i : Instr) (s t : State), isReset i = false → exec i s = .next t →
    s.runState.rank ≤ t.runState.rank ∧ (s.rxHalted = true → t.rxHalted = true) ∧ t.constructed = s.constructed ∧
      t.cfg = s.cfg ∧ t.descriptor = s.descriptor ∧ t.kind = s.kind ∧ t.pending = s.pending

/-- R140: every operation but CONSUME and RESET keeps `bytes_read + bytes_invalid + fill` equal, modulo 2^CTR_W (R5:
32), to what it was plus the bytes the operation brought in. -/
def Obligations.EveryByteIsAccountedFor : Prop :=
  ∀ (i : Instr) (s t : State), Sound s → isReset i = false → (∀ m : Nat, i ≠ .consume m) → exec i s = .next t →
    accounted t = (accounted s + arriving i) % 2 ^ s.cfg.ctrW

/-- R26, R171, R173: what is no operation of RXE leaves the whole receive path as it is; what is one leaves the
lifecycle state, the transmit counter and the held callers as they are, and never takes an unread message away; what
runs no APPLY leaves the two counters as they are. That the rows FRAME and OUTCOME.* (log 3) and the internal steps
VERIFY, PARSE and SYNC (log 20) count as operations of RXE, that an append first finishes a DRAIN under way (log 9), and
that the slot keeps its content when a message was taken or freed (log 7), is the model's choice. -/
def Obligations.AgentsKeepToTheirState : Prop :=
  ∀ (i : Instr) (s t : State), isReset i = false → exec i s = .next t →
    (receiverOp i = false →
      t.buf = s.buf ∧ t.fill = s.fill ∧ t.resync = s.resync ∧ t.bytesRead = s.bytesRead ∧
        t.bytesInvalid = s.bytesInvalid ∧ t.rxHalted = s.rxHalted ∧ t.draining = s.draining ∧ t.msg = s.msg ∧
        (t.msgValid = true → s.msgValid = true)) ∧
    (receiverOp i = true →
      t.runState = s.runState ∧ t.bytesWrite = s.bytesWrite ∧ t.held = s.held ∧
        (s.msgValid = true → t.msgValid = true)) ∧
    (runsApply i = false → t.bytesRead = s.bytesRead ∧ t.bytesInvalid = s.bytesInvalid)

/-- R12, R31: bytes of the buffer at and beyond `fill` are never read: two states that differ in them only give the
same answer, and the next states differ in such bytes only. With fewer than MIN_PROBE bytes nothing is read (R6). -/
def Obligations.BytesBeyondFillAreNeverRead : Prop :=
  ∀ (i : Instr) (s : State) (m : Memory), s.cfg.wf = true → (∀ a : Nat, a < s.fill → m.read a = s.buf.read a) →
    (∀ t : State, exec i s = .next t →
      ∃ m' : Memory, exec i { s with buf := m } = .next { t with buf := m' } ∧
        ∀ a : Nat, a < t.fill → m'.read a = t.buf.read a) ∧
    (∀ f : Fault, exec i s = .fault f → exec i { s with buf := m } = .fault f) ∧
    (∀ r : Refusal, exec i s = .refused r → exec i { s with buf := m } = .refused r)

/-- R17: while `msg_valid` is 0 the content of the slot is never read: two states that differ in it only give the same
answer, and the next states differ at most in a slot that is still not valid. -/
def Obligations.EmptySlotIsNeverRead : Prop :=
  ∀ (i : Instr) (s : State) (m : Message), s.msgValid = false →
    (∀ t : State, exec i s = .next t →
      ∃ m' : Message, exec i { s with msg := m } = .next { t with msg := m' } ∧
        (t.msgValid = true → m' = t.msg)) ∧
    (∀ f : Fault, exec i s = .fault f → exec i { s with msg := m } = .fault f) ∧
    (∀ r : Refusal, exec i s = .refused r → exec i { s with msg := m } = .refused r)

/-! ## An arrival inside a DRAIN -/

/-- R135, R136, R166: RXE runs one callback at a time, so an append, a read or a frame that comes while a DRAIN is under
way comes after that DRAIN: it is one APPLY of the DRAIN followed by the same arrival, until the DRAIN has ended (where
`draining` is clear the other statements say what an arrival does). It answers and stops as that does, with the wake-up
events of both; an arrival that runs no CHECK itself shows the cause of the DRAIN's last one. That this takes one step
is the model's choice (log 9, log 15; FRAME: log 3). -/
def Obligations.ArrivalsFirstFinishTheDrain : Prop :=
  ∀ (s u : State) (i : Instr), Sound s → receiverLive s = true → s.draining = true → exec .apply s = .next u →
    (((∃ data : List Byte, i = .rxEvent (.data data)) ∨
        (∃ (addr len crc : Byte) (payload : List Byte), i = .frame addr len payload crc)) →
      (∀ v : State, exec i u = .next v → exec i s = .next { v with wakes := u.wakes + v.wakes }) ∧
        ∀ f : Fault, exec i u = .fault f → exec i s = .fault f) ∧
    ((∃ data : List Byte, i = .rxAppend data) ∨ i = .rxEvent .wouldBlock ∨ i = .rxEvent .eof ∨ i = .rxEvent .err →
      (∀ v : State, exec i u = .next v →
        exec i s = .next { v with
          cause := if u.draining = true then v.cause else u.cause
          wakes := u.wakes + v.wakes }) ∧
        ∀ f : Fault, exec i u = .fault f → exec i s = .fault f)
end

