-- ==== Sys2Proof/Laws/Config.lean ====
section
/-! SUPPORT. The relations between the parameters, by name (R6, log 4). -/

namespace Sys2Proof

/-- What `Params.wf` says. -/
structure Params.Relations (p : Params) : Prop where
  lMin_pos : 1 ≤ p.lMin
  lMin_le : p.lMin ≤ p.lMax
  lMax_le : p.lMax ≤ 255
  overhead : p.frameOverhead = 3
  probe : p.minProbe = p.lMin + 3
  frame_le : p.lMax + 3 ≤ p.bufCap
  payload_le : p.lMax - 1 ≤ p.msgCap
  resync_pos : 1 ≤ p.scanStartResync
  len_pos : 1 ≤ p.scanStartLen
  shutdown_neg : p.shutdownLen < 0
  frame_port : p.lMax + 3 < 2 ^ (p.outcomeW - 1)
  buf_port : p.bufCap ≤ 2 ^ (p.outcomeW - 1)

theorem Params.relations {p : Params} (h : p.wf = true) : p.Relations := by
  simp only [Params.wf, Bool.and_eq_true, decide_eq_true_eq, and_assoc] at h
  obtain ⟨h1, h2, h3, h4, h5, h6, h7, h8, h9, h10, h11, h12⟩ := h
  rw [Params.frameMax, h4] at h6 h11
  rw [h4] at h5
  exact ⟨h1, h2, h3, h4, h5, h6, h7, h8, h9, h10, h11, h12⟩

/-- FRAME_MAX under the relations (R5, R6). -/
theorem Params.Relations.frameMax {p : Params} (h : p.Relations) : p.frameMax = p.lMax + 3 := by
  rw [Params.frameMax, h.overhead]

end Sys2Proof
end

