-- ==== Sys2Proof/Laws/State.lean ====
section
/-! SUPPORT. One lemma per field and per named update of the state, true by rfl. -/

namespace Sys2Proof.Machine

/-! ## State.clearOutputs -/

@[simp] theorem clearOutputs_cfg (s : State) : (s.clearOutputs).cfg = s.cfg := rfl
@[simp] theorem clearOutputs_constructed (s : State) : (s.clearOutputs).constructed = s.constructed := rfl
@[simp] theorem clearOutputs_descriptor (s : State) : (s.clearOutputs).descriptor = s.descriptor := rfl
@[simp] theorem clearOutputs_kind (s : State) : (s.clearOutputs).kind = s.kind := rfl
@[simp] theorem clearOutputs_buf (s : State) : (s.clearOutputs).buf = s.buf := rfl
@[simp] theorem clearOutputs_fill (s : State) : (s.clearOutputs).fill = s.fill := rfl
@[simp] theorem clearOutputs_resync (s : State) : (s.clearOutputs).resync = s.resync := rfl
@[simp] theorem clearOutputs_bytesRead (s : State) : (s.clearOutputs).bytesRead = s.bytesRead := rfl
@[simp] theorem clearOutputs_bytesInvalid (s : State) : (s.clearOutputs).bytesInvalid = s.bytesInvalid := rfl
@[simp] theorem clearOutputs_bytesWrite (s : State) : (s.clearOutputs).bytesWrite = s.bytesWrite := rfl
@[simp] theorem clearOutputs_msgValid (s : State) : (s.clearOutputs).msgValid = s.msgValid := rfl
@[simp] theorem clearOutputs_msg (s : State) : (s.clearOutputs).msg = s.msg := rfl
@[simp] theorem clearOutputs_runState (s : State) : (s.clearOutputs).runState = s.runState := rfl
@[simp] theorem clearOutputs_rxHalted (s : State) : (s.clearOutputs).rxHalted = s.rxHalted := rfl
@[simp] theorem clearOutputs_draining (s : State) : (s.clearOutputs).draining = s.draining := rfl
@[simp] theorem clearOutputs_held (s : State) : (s.clearOutputs).held = s.held := rfl
@[simp] theorem clearOutputs_pending (s : State) : (s.clearOutputs).pending = s.pending := rfl
@[simp] theorem clearOutputs_result (s : State) : (s.clearOutputs).result = .none := rfl
@[simp] theorem clearOutputs_cause (s : State) : (s.clearOutputs).cause = none := rfl
@[simp] theorem clearOutputs_wakes (s : State) : (s.clearOutputs).wakes = 0 := rfl

/-! ## State.withVerdict -/

@[simp] theorem withVerdict_cfg (s : State) (v : Verdict) : (s.withVerdict v).cfg = s.cfg := rfl
@[simp] theorem withVerdict_constructed (s : State) (v : Verdict) : (s.withVerdict v).constructed = s.constructed := rfl
@[simp] theorem withVerdict_descriptor (s : State) (v : Verdict) : (s.withVerdict v).descriptor = s.descriptor := rfl
@[simp] theorem withVerdict_kind (s : State) (v : Verdict) : (s.withVerdict v).kind = s.kind := rfl
@[simp] theorem withVerdict_buf (s : State) (v : Verdict) : (s.withVerdict v).buf = s.buf := rfl
@[simp] theorem withVerdict_fill (s : State) (v : Verdict) : (s.withVerdict v).fill = s.fill := rfl
@[simp] theorem withVerdict_resync (s : State) (v : Verdict) : (s.withVerdict v).resync = v.resync := rfl
@[simp] theorem withVerdict_bytesRead (s : State) (v : Verdict) : (s.withVerdict v).bytesRead = s.bytesRead := rfl
@[simp] theorem withVerdict_bytesInvalid (s : State) (v : Verdict) : (s.withVerdict v).bytesInvalid = s.bytesInvalid := rfl
@[simp] theorem withVerdict_bytesWrite (s : State) (v : Verdict) : (s.withVerdict v).bytesWrite = s.bytesWrite := rfl
@[simp] theorem withVerdict_msgValid (s : State) (v : Verdict) : (s.withVerdict v).msgValid = s.msgValid := rfl
@[simp] theorem withVerdict_msg (s : State) (v : Verdict) : (s.withVerdict v).msg = s.msg := rfl
@[simp] theorem withVerdict_runState (s : State) (v : Verdict) : (s.withVerdict v).runState = s.runState := rfl
@[simp] theorem withVerdict_rxHalted (s : State) (v : Verdict) : (s.withVerdict v).rxHalted = s.rxHalted := rfl
@[simp] theorem withVerdict_draining (s : State) (v : Verdict) : (s.withVerdict v).draining = s.draining := rfl
@[simp] theorem withVerdict_held (s : State) (v : Verdict) : (s.withVerdict v).held = s.held := rfl
@[simp] theorem withVerdict_pending (s : State) (v : Verdict) : (s.withVerdict v).pending = s.pending := rfl
@[simp] theorem withVerdict_result (s : State) (v : Verdict) : (s.withVerdict v).result = .outcome v.outcome := rfl
@[simp] theorem withVerdict_cause (s : State) (v : Verdict) : (s.withVerdict v).cause = v.cause := rfl
@[simp] theorem withVerdict_wakes (s : State) (v : Verdict) : (s.withVerdict v).wakes = s.wakes := rfl

/-! ## raiseTransportFatal -/

@[simp] theorem raiseTransportFatal_cfg (s : State) : (raiseTransportFatal s).cfg = s.cfg := rfl
@[simp] theorem raiseTransportFatal_constructed (s : State) : (raiseTransportFatal s).constructed = s.constructed := rfl
@[simp] theorem raiseTransportFatal_descriptor (s : State) : (raiseTransportFatal s).descriptor = s.descriptor := rfl
@[simp] theorem raiseTransportFatal_kind (s : State) : (raiseTransportFatal s).kind = s.kind := rfl
@[simp] theorem raiseTransportFatal_buf (s : State) : (raiseTransportFatal s).buf = s.buf := rfl
@[simp] theorem raiseTransportFatal_fill (s : State) : (raiseTransportFatal s).fill = s.fill := rfl
@[simp] theorem raiseTransportFatal_resync (s : State) : (raiseTransportFatal s).resync = s.resync := rfl
@[simp] theorem raiseTransportFatal_bytesRead (s : State) : (raiseTransportFatal s).bytesRead = s.bytesRead := rfl
@[simp] theorem raiseTransportFatal_bytesInvalid (s : State) : (raiseTransportFatal s).bytesInvalid = s.bytesInvalid := rfl
@[simp] theorem raiseTransportFatal_bytesWrite (s : State) : (raiseTransportFatal s).bytesWrite = s.bytesWrite := rfl
@[simp] theorem raiseTransportFatal_msgValid (s : State) : (raiseTransportFatal s).msgValid = s.msgValid := rfl
@[simp] theorem raiseTransportFatal_msg (s : State) : (raiseTransportFatal s).msg = s.msg := rfl
@[simp] theorem raiseTransportFatal_runState (s : State) : (raiseTransportFatal s).runState = s.runState := rfl
@[simp] theorem raiseTransportFatal_rxHalted (s : State) : (raiseTransportFatal s).rxHalted = true := rfl
@[simp] theorem raiseTransportFatal_draining (s : State) : (raiseTransportFatal s).draining = s.draining := rfl
@[simp] theorem raiseTransportFatal_held (s : State) : (raiseTransportFatal s).held = s.held := rfl
@[simp] theorem raiseTransportFatal_pending (s : State) : (raiseTransportFatal s).pending = s.pending := rfl
@[simp] theorem raiseTransportFatal_result (s : State) : (raiseTransportFatal s).result = s.result := rfl
@[simp] theorem raiseTransportFatal_cause (s : State) : (raiseTransportFatal s).cause = s.cause := rfl
@[simp] theorem raiseTransportFatal_wakes (s : State) : (raiseTransportFatal s).wakes = if s.cfg.eofSetsExit then s.wakes + 1 else s.wakes := rfl

/-! ## placeWord -/

@[simp] theorem placeWord_cfg (s : State) (nbits w : Nat) : (placeWord s nbits w).cfg = s.cfg := rfl
@[simp] theorem placeWord_constructed (s : State) (nbits w : Nat) : (placeWord s nbits w).constructed = s.constructed := rfl
@[simp] theorem placeWord_descriptor (s : State) (nbits w : Nat) : (placeWord s nbits w).descriptor = s.descriptor := rfl
@[simp] theorem placeWord_kind (s : State) (nbits w : Nat) : (placeWord s nbits w).kind = s.kind := rfl
@[simp] theorem placeWord_buf (s : State) (nbits w : Nat) : (placeWord s nbits w).buf = s.buf := rfl
@[simp] theorem placeWord_fill (s : State) (nbits w : Nat) : (placeWord s nbits w).fill = s.fill := rfl
@[simp] theorem placeWord_resync (s : State) (nbits w : Nat) : (placeWord s nbits w).resync = s.resync := rfl
@[simp] theorem placeWord_bytesRead (s : State) (nbits w : Nat) : (placeWord s nbits w).bytesRead = s.bytesRead := rfl
@[simp] theorem placeWord_bytesInvalid (s : State) (nbits w : Nat) : (placeWord s nbits w).bytesInvalid = s.bytesInvalid := rfl
@[simp] theorem placeWord_bytesWrite (s : State) (nbits w : Nat) : (placeWord s nbits w).bytesWrite = s.bytesWrite := rfl
@[simp] theorem placeWord_msgValid (s : State) (nbits w : Nat) : (placeWord s nbits w).msgValid = s.msgValid := rfl
@[simp] theorem placeWord_msg (s : State) (nbits w : Nat) : (placeWord s nbits w).msg = s.msg := rfl
@[simp] theorem placeWord_runState (s : State) (nbits w : Nat) : (placeWord s nbits w).runState = s.runState := rfl
@[simp] theorem placeWord_rxHalted (s : State) (nbits w : Nat) : (placeWord s nbits w).rxHalted = s.rxHalted := rfl
@[simp] theorem placeWord_draining (s : State) (nbits w : Nat) : (placeWord s nbits w).draining = s.draining := rfl
@[simp] theorem placeWord_held (s : State) (nbits w : Nat) : (placeWord s nbits w).held = s.held := rfl
@[simp] theorem placeWord_pending (s : State) (nbits w : Nat) : (placeWord s nbits w).pending = tablePacket nbits w :: s.pending := rfl
@[simp] theorem placeWord_result (s : State) (nbits w : Nat) : (placeWord s nbits w).result = s.result := rfl
@[simp] theorem placeWord_cause (s : State) (nbits w : Nat) : (placeWord s nbits w).cause = s.cause := rfl
@[simp] theorem placeWord_wakes (s : State) (nbits w : Nat) : (placeWord s nbits w).wakes = s.wakes := rfl

/-! ## State.fresh -/

@[simp] theorem fresh_cfg (c : Params) (d : BitVec 32) (k : DescriptorKind) (p : List Packet) : (State.fresh c d k p).cfg = c := rfl
@[simp] theorem fresh_constructed (c : Params) (d : BitVec 32) (k : DescriptorKind) (p : List Packet) : (State.fresh c d k p).constructed = true := rfl
@[simp] theorem fresh_descriptor (c : Params) (d : BitVec 32) (k : DescriptorKind) (p : List Packet) : (State.fresh c d k p).descriptor = d := rfl
@[simp] theorem fresh_kind (c : Params) (d : BitVec 32) (k : DescriptorKind) (p : List Packet) : (State.fresh c d k p).kind = k := rfl
@[simp] theorem fresh_buf (c : Params) (d : BitVec 32) (k : DescriptorKind) (p : List Packet) : (State.fresh c d k p).buf = [] := rfl
@[simp] theorem fresh_fill (c : Params) (d : BitVec 32) (k : DescriptorKind) (p : List Packet) : (State.fresh c d k p).fill = 0 := rfl
@[simp] theorem fresh_resync (c : Params) (d : BitVec 32) (k : DescriptorKind) (p : List Packet) : (State.fresh c d k p).resync = false := rfl
@[simp] theorem fresh_bytesRead (c : Params) (d : BitVec 32) (k : DescriptorKind) (p : List Packet) : (State.fresh c d k p).bytesRead = 0 := rfl
@[simp] theorem fresh_bytesInvalid (c : Params) (d : BitVec 32) (k : DescriptorKind) (p : List Packet) : (State.fresh c d k p).bytesInvalid = 0 := rfl
@[simp] theorem fresh_bytesWrite (c : Params) (d : BitVec 32) (k : DescriptorKind) (p : List Packet) : (State.fresh c d k p).bytesWrite = 0 := rfl
@[simp] theorem fresh_msgValid (c : Params) (d : BitVec 32) (k : DescriptorKind) (p : List Packet) : (State.fresh c d k p).msgValid = false := rfl
@[simp] theorem fresh_msg (c : Params) (d : BitVec 32) (k : DescriptorKind) (p : List Packet) : (State.fresh c d k p).msg = Message.blank := rfl
@[simp] theorem fresh_runState (c : Params) (d : BitVec 32) (k : DescriptorKind) (p : List Packet) : (State.fresh c d k p).runState = .running := rfl
@[simp] theorem fresh_rxHalted (c : Params) (d : BitVec 32) (k : DescriptorKind) (p : List Packet) : (State.fresh c d k p).rxHalted = false := rfl
@[simp] theorem fresh_draining (c : Params) (d : BitVec 32) (k : DescriptorKind) (p : List Packet) : (State.fresh c d k p).draining = false := rfl
@[simp] theorem fresh_held (c : Params) (d : BitVec 32) (k : DescriptorKind) (p : List Packet) : (State.fresh c d k p).held = 0 := rfl
@[simp] theorem fresh_pending (c : Params) (d : BitVec 32) (k : DescriptorKind) (p : List Packet) : (State.fresh c d k p).pending = p := rfl
@[simp] theorem fresh_result (c : Params) (d : BitVec 32) (k : DescriptorKind) (p : List Packet) : (State.fresh c d k p).result = .none := rfl
@[simp] theorem fresh_cause (c : Params) (d : BitVec 32) (k : DescriptorKind) (p : List Packet) : (State.fresh c d k p).cause = none := rfl
@[simp] theorem fresh_wakes (c : Params) (d : BitVec 32) (k : DescriptorKind) (p : List Packet) : (State.fresh c d k p).wakes = 0 := rfl

end Sys2Proof.Machine
end

