-- ==== Sys2Proof/Laws/Enable.lean ====
section
/-! SUPPORT. When an operation has a step: the enabling conditions said once (R130, R161, R169). -/

namespace Sys2Proof.Machine

/-- A live engine runs the operation. -/
theorem onEngine_live {s : State} (h : engineLive s = true) (k : Host.Outcome State Fault Refusal) :
    onEngine s k = k := by
  simp only [engineLive, Bool.and_eq_true, decide_eq_true_eq] at h
  simp [onEngine, h.1, h.2]

/-- What an answered next state says of the gate of the engine. -/
theorem onEngine_next {s t : State} {k : Host.Outcome State Fault Refusal} (h : onEngine s k = .next t) :
    engineLive s = true ∧ k = .next t := by
  unfold onEngine at h
  split_ifs at h with h1 h2
  exact ⟨by simpa [engineLive, h2] using h1, h⟩

/-- A live receiver is the receiver of a live engine. -/
theorem engineLive_of_receiverLive {s : State} (h : receiverLive s = true) : engineLive s = true := by
  simp only [receiverLive, engineLive, Bool.and_eq_true, Bool.or_eq_true, decide_eq_true_eq] at h ⊢
  exact ⟨h.1.1, by rcases h.1.2 with h | h <;> simp [h]⟩

/-- A live receiver performs the operation. -/
theorem onReceiver_live {s : State} (h : receiverLive s = true) (k : Host.Outcome State Fault Refusal) :
    onReceiver s k = k := by
  rw [onReceiver, onEngine_live (engineLive_of_receiverLive h)]
  simp only [receiverLive, Bool.and_eq_true, Bool.or_eq_true, decide_eq_true_eq, Bool.not_eq_true'] at h
  rcases h.1.2 with h2 | h2 <;> simp [h2, h.2]

/-- What an answered next state says of the gate of the receiver. -/
theorem onReceiver_next {s t : State} {k : Host.Outcome State Fault Refusal} (h : onReceiver s k = .next t) :
    receiverLive s = true ∧ k = .next t := by
  obtain ⟨hl, h⟩ := onEngine_next h
  split_ifs at h with h1 h2
  refine ⟨?_, h⟩
  simp only [engineLive, Bool.and_eq_true, decide_eq_true_eq] at hl
  cases hr : s.runState <;> simp_all [receiverLive]

/-- An internal computation that ends well is a next state, and the other way round. -/
@[simp] theorem settle_next {e : Except Fault State} {t : State} : settle e = .next t ↔ e = .ok t := by
  cases e <;> simp [settle]

/-- The enabling conditions do not look at the model's outputs. -/
@[simp] theorem receiverLive_clearOutputs (s : State) : receiverLive s.clearOutputs = receiverLive s := rfl

@[simp] theorem engineLive_clearOutputs (s : State) : engineLive s.clearOutputs = engineLive s := rfl

@[simp] theorem shuttingDown_clearOutputs (s : State) : shuttingDown s.clearOutputs = shuttingDown s := rfl

end Sys2Proof.Machine
end

