-- ==== Sys2Proof/Laws/Memory.lean ====
section
/-! SUPPORT. The laws of the buffer: what a read gives after each write, and that every memory operation keeps the
canonical form (R8, R12, R131, R132). -/

namespace Sys2Proof.Machine

/-! ## Reads after writes -/

@[simp] theorem Memory.read_nil (i : Nat) : Memory.read [] i = none := rfl

theorem Memory.read_cons (a : Nat) (b : Byte) (m : Memory) (i : Nat) :
    Memory.read ((a, b) :: m) i = if a = i then some b else m.read i := rfl

@[simp] theorem Memory.read_write_same (m : Memory) (i : Nat) (v : Byte) : (m.write i v).read i = some v := by
  induction m with
  | nil => simp [Memory.write, Memory.read]
  | cons c m ih =>
    obtain ⟨a, b⟩ := c
    unfold Memory.write
    split_ifs with h1 h2
    · simp [Memory.read]
    · simp [Memory.read]
    · simp [Memory.read, Ne.symm h2, ih]

@[simp] theorem Memory.read_write_other (m : Memory) {i j : Nat} (v : Byte) (h : j ≠ i) :
    (m.write i v).read j = m.read j := by
  induction m with
  | nil => simp [Memory.write, Memory.read, Ne.symm h]
  | cons c m ih =>
    obtain ⟨a, b⟩ := c
    unfold Memory.write
    split_ifs with h1 h2
    · simp [Memory.read, Ne.symm h]
    · subst h2; simp [Memory.read, Ne.symm h]
    · simp [Memory.read, ih]

theorem Memory.read_writeN (m : Memory) (addr : Nat) (data : List Byte) (i : Nat) :
    (m.writeN addr data).read i =
      if addr ≤ i ∧ i < addr + data.length then data[i - addr]? else m.read i := by
  induction data generalizing m addr with
  | nil => simp [Memory.writeN]
  | cons b bs ih =>
    rw [Memory.writeN, ih]
    by_cases h : addr = i
    · subst h; simp
    · by_cases h2 : addr + 1 ≤ i ∧ i < addr + 1 + bs.length
      · have h3 : addr ≤ i ∧ i < addr + (b :: bs).length := by simp; omega
        rw [if_pos h2, if_pos h3, show i - addr = (i - (addr + 1)) + 1 by omega]
        simp
      · have h3 : ¬(addr ≤ i ∧ i < addr + (b :: bs).length) := by simp at h2 ⊢; omega
        rw [if_neg h2, if_neg h3, Memory.read_write_other _ _ (Ne.symm h)]

/-- After a compaction the byte that was at `k + i` is at `i`, and nothing has a value from `fill - k` on (R132). -/
theorem Memory.read_compact (m : Memory) (k fill i : Nat) :
    (m.compact k fill).read i = if i + k < fill then m.read (i + k) else none := by
  induction m with
  | nil => simp [Memory.compact, Memory.read]
  | cons c m ih =>
    obtain ⟨a, b⟩ := c
    have hc : Memory.compact ((a, b) :: m) k fill =
        if k ≤ a ∧ a < fill then (a - k, b) :: Memory.compact m k fill else Memory.compact m k fill := by
      unfold Memory.compact
      rw [List.filterMap_cons]
      split_ifs <;> simp_all
    rw [hc]
    split_ifs with h h2 h2
    · by_cases h3 : a - k = i
      · simp [Memory.read, show a = i + k by omega]
      · simp [Memory.read, h3, show a ≠ i + k by omega, ih, h2]
    · simp [Memory.read, show a - k ≠ i by omega, ih, h2]
    · simp [Memory.read, show a ≠ i + k by omega, ih, h2]
    · simp [ih, h2]

/-! ## The canonical form -/

theorem Memory.wf_nil (cap : Nat) : Memory.wf cap [] = true := rfl

theorem Memory.wf_iff (cap : Nat) (m : Memory) :
    m.wf cap = true ↔ (m.map Prod.fst).Pairwise (· < ·) ∧ ∀ c ∈ m, c.1 < cap := by
  simp [Memory.wf]

/-- The addresses listed after a write are the old ones and the written one. -/
theorem Memory.mem_write {m : Memory} {i : Nat} {v : Byte} {c : Host.Cell} (h : c ∈ m.write i v) :
    c = (i, v) ∨ c ∈ m := by
  induction m with
  | nil => simpa [Memory.write] using h
  | cons d m ih =>
    obtain ⟨a, b⟩ := d
    unfold Memory.write at h
    split_ifs at h with h1 h2 <;> simp at h ⊢ <;> tauto

theorem Memory.wf_write {cap : Nat} (m : Memory) (i : Nat) (v : Byte) (hi : i < cap) (h : m.wf cap = true) :
    (m.write i v).wf cap = true := by
  rw [Memory.wf_iff] at h ⊢
  refine ⟨?_, fun c hc => ?_⟩
  · obtain ⟨h, -⟩ := h
    induction m with
    | nil => simp [Memory.write]
    | cons d m ih =>
      obtain ⟨a, b⟩ := d
      simp only [List.map_cons, List.pairwise_cons] at h
      unfold Memory.write
      split_ifs with h1 h2
      · simp only [List.map_cons, List.pairwise_cons, List.mem_cons, List.mem_map]
        refine ⟨?_, ?_, h.2⟩
        · rintro x (rfl | ⟨c, hc, rfl⟩)
          · exact h1
          · have := h.1 c.1 (List.mem_map_of_mem hc)
            omega
        · rintro x ⟨c, hc, rfl⟩
          exact h.1 c.1 (List.mem_map_of_mem hc)
      · subst h2
        simpa using h
      · simp only [List.map_cons, List.pairwise_cons, List.mem_map]
        refine ⟨?_, ih h.2⟩
        rintro x ⟨c, hc, rfl⟩
        rcases Memory.mem_write hc with rfl | hc
        · simp only; omega
        · exact h.1 c.1 (List.mem_map_of_mem hc)
  · rcases Memory.mem_write hc with rfl | hc
    · exact hi
    · exact h.2 c hc

theorem Memory.wf_writeN {cap : Nat} (m : Memory) (addr : Nat) (data : List Byte) (hd : addr + data.length ≤ cap)
    (h : m.wf cap = true) : (m.writeN addr data).wf cap = true := by
  induction data generalizing m addr with
  | nil => exact h
  | cons b bs ih =>
    simp only [List.length_cons] at hd
    exact ih _ _ (by omega) (Memory.wf_write m addr b (by omega) h)

theorem Memory.wf_compact {cap : Nat} (m : Memory) (k fill : Nat) (h : m.wf cap = true) :
    (m.compact k fill).wf cap = true := by
  rw [Memory.wf_iff] at h ⊢
  obtain ⟨h1, h2⟩ := h
  refine ⟨?_, fun c hc => ?_⟩
  · rw [List.pairwise_map] at h1 ⊢
    unfold Memory.compact
    rw [List.pairwise_filterMap]
    refine h1.imp fun {a b} hab x hx y hy => ?_
    split_ifs at hx hy
    simp only [Option.some.injEq] at hx hy
    subst hx hy
    simp only
    omega
  · unfold Memory.compact at hc
    rw [List.mem_filterMap] at hc
    obtain ⟨d, hd, hx⟩ := hc
    split_ifs at hx
    simp only [Option.some.injEq] at hx
    subst hx
    have := h2 d hd
    simp only
    omega

/-- Reading a run of bytes is reading each of them. -/
theorem Memory.readN_eq_some_iff (m : Memory) (addr n : Nat) (bs : List Byte) :
    m.readN addr n = some bs ↔ bs.length = n ∧ ∀ i : Nat, i < n → m.read (addr + i) = bs[i]? := by
  induction n generalizing addr bs with
  | zero =>
    simp only [Memory.readN, Option.some.injEq, Nat.not_lt_zero, false_implies, implies_true, and_true]
    constructor
    · rintro rfl; rfl
    · intro h; exact (List.length_eq_zero_iff.mp h).symm
  | succ n ih =>
    rw [Memory.readN]
    constructor
    · intro h
      split at h
      · rename_i b bs' hb hbs
        simp only [Option.some.injEq] at h
        subst h
        obtain ⟨hl, hr⟩ := (ih _ _).mp hbs
        refine ⟨by simp [hl], fun i hi => ?_⟩
        cases i with
        | zero => simpa using hb
        | succ i =>
          rw [show addr + (i + 1) = addr + 1 + i by omega, hr i (by omega)]
          simp
      · cases h
    · rintro ⟨hl, hr⟩
      cases bs with
      | nil => simp at hl
      | cons b bs =>
        have h0 := hr 0 (by omega)
        simp only [Nat.add_zero, List.getElem?_cons_zero] at h0
        have h1 : m.readN (addr + 1) n = some bs := by
          rw [ih]
          refine ⟨by simpa using hl, fun i hi => ?_⟩
          have := hr (i + 1) (by omega)
          rw [show addr + 1 + i = addr + (i + 1) by omega, this]
          simp
        rw [h0, h1]

end Sys2Proof.Machine
end

