-- ==== Sys2Proof/Laws/Contents.lean ====
section
/-! SUPPORT. The operations over the buffer, said once in terms of the byte sequence it holds. -/

namespace Sys2Proof.Machine

/-- What a buffer of known content answers to a read. -/
def Holds (m : Memory) (bytes : List Byte) : Prop := ∀ i : Nat, m.read i = bytes[i]?

theorem holds_nil : Holds [] [] := fun i => by simp

/-- Reading a run inside the content gives that part of the sequence. -/
theorem Holds.readN {m : Memory} {bytes : List Byte} (h : Holds m bytes) {a n : Nat} (hn : a + n ≤ bytes.length) :
    m.readN a n = some ((bytes.drop a).take n) := by
  rw [Memory.readN_eq_some_iff]
  refine ⟨by simp; omega, fun i hi => ?_⟩
  rw [h, List.getElem?_take_of_lt hi, List.getElem?_drop]

/-- Appending writes behind the content (R131). -/
theorem Holds.writeN {m : Memory} {bytes : List Byte} (h : Holds m bytes) (data : List Byte) :
    Holds (m.writeN bytes.length data) (bytes ++ data) := fun i => by
  rw [Memory.read_writeN, List.getElem?_append, h]
  split_ifs with h1 h2 h2
  · omega
  · rfl
  · rfl
  · rw [List.getElem?_eq_none (by omega), List.getElem?_eq_none (by omega)]

/-- Compacting drops the front (R132). -/
theorem Holds.compact {m : Memory} {bytes : List Byte} (h : Holds m bytes) (k : Nat) :
    Holds (m.compact k bytes.length) (bytes.drop k) := fun i => by
  rw [Memory.read_compact, List.getElem?_drop, h, Nat.add_comm k i]
  split_ifs with h1
  · rfl
  · rw [List.getElem?_eq_none (by omega)]

/-! ## The scan -/

/-- What the scan answers: the least index that holds HEAD, or that there is none (R102). -/
theorem Holds.scanFrom (head : Byte) {m : Memory} {bytes : List Byte} (h : Holds m bytes) (count k : Nat)
    (hk : k + count = bytes.length ∨ (bytes.length ≤ k ∧ count = 0)) :
    (∃ j, Machine.scanFrom head m k count = some (.found j) ∧ FirstHead head bytes k j) ∨
      (Machine.scanFrom head m k count = some .notFound ∧ NoHead head bytes k) := by
  induction count generalizing k with
  | zero =>
    refine .inr ⟨rfl, fun j hj => ?_⟩
    rw [List.getElem?_eq_none (by omega)]
    simp
  | succ n ih =>
    have hlt : k < bytes.length := by omega
    have hr : m.read k = some bytes[k] := by rw [h, List.getElem?_eq_getElem hlt]
    unfold Machine.scanFrom
    simp only [hr]
    split_ifs with hh
    · exact .inl ⟨k, rfl, Nat.le_refl k, by rw [List.getElem?_eq_getElem hlt, hh], fun j _ _ => by omega⟩
    · have hk' : bytes[k]? ≠ some head := by
        rw [List.getElem?_eq_getElem hlt]
        exact fun e => hh (Option.some.inj e)
      rcases ih (k + 1) (by omega) with ⟨j, hj, h1, h2, h3⟩ | ⟨hj, h1⟩
      · refine .inl ⟨j, hj, by omega, h2, fun i hi hij => ?_⟩
        rcases Nat.eq_or_lt_of_le hi with rfl | hi
        · exact hk'
        · exact h3 i hi hij
      · refine .inr ⟨hj, fun i hi => ?_⟩
        rcases Nat.eq_or_lt_of_le hi with rfl | hi
        · exact hk'
        · exact h1 i hi

theorem Holds.scan (head : Byte) {m : Memory} {bytes : List Byte} (h : Holds m bytes) (start : Nat) :
    (∃ j, Machine.scan head m start bytes.length = some (.found j) ∧ FirstHead head bytes start j) ∨
      (Machine.scan head m start bytes.length = some .notFound ∧ NoHead head bytes start) := by
  unfold Machine.scan
  exact h.scanFrom _ _ _ (by omega)

/-- The error path always answers, with a verdict that `Resolves` describes (R104). -/
theorem Holds.raiseSync (head : Byte) {m : Memory} {bytes : List Byte} (h : Holds m bytes) (start : Nat)
    (cause : SyncCause) :
    ∃ o flag, Machine.raiseSync head m bytes.length start cause =
      some { outcome := o, resync := flag, cause := some cause } ∧
      Resolves head bytes start o flag := by
  rcases h.scan head start with ⟨j, hj, hf⟩ | ⟨hj, hn⟩
  · exact ⟨_, _, by rw [Machine.raiseSync, hj], .inl ⟨j, hf, rfl, rfl⟩⟩
  · exact ⟨_, _, by rw [Machine.raiseSync, hj], .inr ⟨hn, rfl, rfl⟩⟩

/-- A found HEAD stands inside the sequence. -/
theorem FirstHead.lt {head : Byte} {bytes : List Byte} {start k : Nat} (h : FirstHead head bytes start k) :
    k < bytes.length := by
  by_contra hk
  have := h.2.1
  rw [List.getElem?_eq_none (by omega)] at this
  cases this

/-- The scan's answer is unique. -/
theorem FirstHead.unique {head : Byte} {bytes : List Byte} {start j k : Nat} (h1 : FirstHead head bytes start j)
    (h2 : FirstHead head bytes start k) : j = k := by
  by_contra hne
  rcases Nat.lt_or_gt_of_ne hne with h | h
  · exact h2.2.2 j h1.1 h h1.2.1
  · exact h1.2.2 k h2.1 h h2.2.1

/-- The error path's answer is unique (R118). -/
theorem Resolves.unique {head : Byte} {bytes : List Byte} {start : Nat} {o o' : CheckOutcome} {f f' : Bool}
    (h : Resolves head bytes start o f) (h' : Resolves head bytes start o' f') : o = o' ∧ f = f' := by
  rcases h with ⟨k, hk, rfl, rfl⟩ | ⟨hk, rfl, rfl⟩ <;> rcases h' with ⟨k', hk', rfl, rfl⟩ | ⟨hk', rfl, rfl⟩
  · exact ⟨by rw [hk.unique hk'], rfl⟩
  · exact absurd hk.2.1 (hk' k hk.1)
  · exact absurd hk'.2.1 (hk k' hk'.1)
  · exact ⟨rfl, rfl⟩

/-- Progress: a discard is of at least 1 and at most all the bytes (R105). -/
theorem Resolves.range {head : Byte} {bytes : List Byte} {start : Nat} {o : CheckOutcome} {flag : Bool}
    (hs : 1 ≤ start ∨ bytes[0]? ≠ some head) (hn : 1 ≤ bytes.length) (h : Resolves head bytes start o flag) :
    ∃ k, o = .discardBytes k ∧ 1 ≤ k ∧ k ≤ bytes.length := by
  rcases h with ⟨k, hk, rfl, -⟩ | ⟨-, rfl, -⟩
  · have h1 := hk.1
    have h2 := hk.lt
    have h3 : k ≠ 0 := by
      rintro rfl
      rcases hs with hs | hs
      · omega
      · exact hs hk.2.1
    exact ⟨k, rfl, by omega, by omega⟩
  · exact ⟨_, rfl, hn, Nat.le_refl _⟩

/-! ## CRC and fields -/

/-- CRC8.VERIFY compares the span's CRC with the byte behind it (R74, R75). -/
theorem Holds.crcVerify (cfg : Params) {m : Memory} {bytes : List Byte} (h : Holds m bytes) {L : Nat}
    (hL : L + 3 ≤ bytes.length) :
    Machine.crcVerify cfg m L = some (decide (bytes[L + 2]? = some (crc8 cfg (spanOf bytes L)))) := by
  have hlt : L + 2 < bytes.length := by omega
  unfold Machine.crcVerify
  rw [h.readN (by omega), h, List.getElem?_eq_getElem hlt]
  simp only [spanOf, Option.some.injEq]
  exact decide_eq_decide.mpr eq_comm

/-- The fields of a window (R36, R89). -/
theorem Holds.readFields {m : Memory} {bytes : List Byte} (h : Holds m bytes) {L : Nat} (h3 : 1 ≤ L)
    (hL : L + 3 ≤ bytes.length) :
    ∃ hd a l c, bytes[0]? = some hd ∧ bytes[1]? = some a ∧ bytes[2]? = some l ∧ bytes[L + 2]? = some c ∧
      Machine.readFields m L =
        some { head := hd, addr := a, len := l, payload := payloadOf bytes L, crc := c } := by
  refine ⟨bytes[0], bytes[1], bytes[2], bytes[L + 2], List.getElem?_eq_getElem _, List.getElem?_eq_getElem _,
    List.getElem?_eq_getElem _, List.getElem?_eq_getElem _, ?_⟩
  unfold Machine.readFields
  rw [h, h, h, h, h.readN (by omega), List.getElem?_eq_getElem (by omega), List.getElem?_eq_getElem (by omega),
    List.getElem?_eq_getElem (by omega), List.getElem?_eq_getElem (by omega)]
  rfl

/-! ## The codec's case distinction -/

/-- The byte of a length below 256. -/
theorem toNat_ofNat_length {L : Nat} (h : L ≤ 255) : (BitVec.ofNat 8 L).toNat = L := by
  simp; omega

section
variable {cfg : Params} (hp : cfg.Relations)
include hp

/-- CHECK where it waits (R116 steps 1 and 5). -/
theorem Holds.checkFrame_waits {m : Memory} {bytes : List Byte} (h : Holds m bytes) {resync : Bool}
    (hw : Waits cfg resync bytes) :
    checkFrame cfg resync m bytes.length = some { outcome := .needMoreData, resync := resync, cause := none } := by
  rcases hw with hw | ⟨rfl, L, ⟨h6, h0, h3, h255, h2⟩, hlt⟩
  · simp [checkFrame, probeTest, hw]
  · have hL := toNat_ofNat_length (h255.trans hp.lMax_le)
    simp only [checkFrame, probeTest, show ¬bytes.length < cfg.minProbe by omega, if_false, gateTest,
      Bool.false_eq_true, checkHead, h 0, h0, headTest, ne_eq, not_true_eq_false, checkLen, h 2, h2,
      lenTest, hL, show ¬(L < cfg.lMin ∨ L > cfg.lMax) by omega, boundsTest, hp.overhead, hlt, if_true]

/-- CHECK where a frame stands at the front and the flag is clear (R121 item 1). -/
theorem Holds.checkFrame_accepts {m : Memory} {bytes : List Byte} (h : Holds m bytes) {L : Nat}
    (hf : FrameAtFront cfg bytes L) :
    checkFrame cfg false m bytes.length =
      some { outcome := .frameAccepted (L + 3), resync := false, cause := none } := by
  obtain ⟨⟨h6, h0, h3, h255, h2⟩, hn, hc⟩ := hf
  have hL := toNat_ofNat_length (h255.trans hp.lMax_le)
  simp only [checkFrame, probeTest, show ¬bytes.length < cfg.minProbe by omega, if_false, gateTest,
    Bool.false_eq_true, checkHead, h 0, h0, headTest, ne_eq, not_true_eq_false, checkLen, h 2, h2,
    lenTest, hL, show ¬(L < cfg.lMin ∨ L > cfg.lMax) by omega, boundsTest, hp.overhead,
    show ¬bytes.length < L + 3 by omega, checkCrc, h.crcVerify cfg hn, hc, decide_true]

/-- CHECK where a test fails: the error path from that cause's scan start (R116, R156). -/
theorem Holds.checkFrame_fails {m : Memory} {bytes : List Byte} (h : Holds m bytes) {resync : Bool}
    {cause : SyncCause} {start : Nat} (hf : FailsWith cfg resync bytes cause start) :
    checkFrame cfg resync m bytes.length = Machine.raiseSync cfg.head m bytes.length start cause := by
  have hp1 := hp.lMin_pos
  have hp2 := hp.probe
  cases cause with
  | resync =>
    obtain ⟨h6, rfl, rfl⟩ := hf
    simp [checkFrame, probeTest, show ¬bytes.length < cfg.minProbe by omega, gateTest]
  | head =>
    obtain ⟨h6, rfl, h0, rfl⟩ := hf
    have hr : m.read 0 = some bytes[0] := by rw [h, List.getElem?_eq_getElem]
    have hne : bytes[0] ≠ cfg.head := fun e => h0 (by rw [List.getElem?_eq_getElem (by omega), e])
    have ht : headTest cfg bytes[0] = .fail .head cfg.scanStartHead := if_pos hne
    simp [checkFrame, probeTest, show ¬bytes.length < cfg.minProbe by omega, gateTest, checkHead, hr, ht]
  | len =>
    obtain ⟨h6, rfl, h0, ⟨b, h2, hb⟩, rfl⟩ := hf
    have ht : lenTest cfg b = .fail .len cfg.scanStartLen := if_pos hb
    simp [checkFrame, probeTest, show ¬bytes.length < cfg.minProbe by omega, gateTest, checkHead, h 0, h0,
      headTest, checkLen, h 2, h2, ht]
  | crc =>
    obtain ⟨rfl, L, ⟨h6, h0, h3, h255, h2⟩, hn, hc, rfl⟩ := hf
    have hL := toNat_ofNat_length (h255.trans hp.lMax_le)
    simp only [checkFrame, probeTest, show ¬bytes.length < cfg.minProbe by omega, if_false, gateTest,
      Bool.false_eq_true, checkHead, h 0, h0, headTest, ne_eq, not_true_eq_false, checkLen, h 2, h2,
      lenTest, hL, show ¬(L < cfg.lMin ∨ L > cfg.lMax) by omega, boundsTest, hp.overhead,
      show ¬bytes.length < L + 3 by omega, checkCrc, h.crcVerify cfg hn, hc, decide_false]

/-- Every flag and every byte sequence is one of the three cases (R118). -/
theorem codec_cases (resync : Bool) (bytes : List Byte) :
    Waits cfg resync bytes ∨ (resync = false ∧ ∃ L, FrameAtFront cfg bytes L) ∨
      ∃ cause start, FailsWith cfg resync bytes cause start := by
  have hp1 := hp.lMin_pos
  have hp2 := hp.probe
  by_cases h6 : bytes.length < cfg.minProbe
  · exact .inl (.inl h6)
  have h6 : cfg.minProbe ≤ bytes.length := by omega
  cases resync with
  | true => exact .inr (.inr ⟨.resync, _, h6, rfl, rfl⟩)
  | false =>
    by_cases h0 : bytes[0]? = some cfg.head
    · have h2 : bytes[2]? = some bytes[2] := List.getElem?_eq_getElem _
      by_cases hb : bytes[2].toNat < cfg.lMin ∨ cfg.lMax < bytes[2].toNat
      · exact .inr (.inr ⟨.len, _, h6, rfl, h0, ⟨_, h2, hb⟩, rfl⟩)
      · have hlh : LegalHeader cfg bytes bytes[2].toNat :=
          ⟨h6, h0, by omega, by omega, by simp⟩
        by_cases hn : bytes.length < bytes[2].toNat + 3
        · exact .inl (.inr ⟨rfl, _, hlh, hn⟩)
        · by_cases hc : bytes[bytes[2].toNat + 2]? = some (crc8 cfg (spanOf bytes bytes[2].toNat))
          · exact .inr (.inl ⟨rfl, _, hlh, by omega, hc⟩)
          · exact .inr (.inr ⟨.crc, _, rfl, _, hlh, by omega, hc, rfl⟩)
    · exact .inr (.inr ⟨.head, _, h6, rfl, h0, rfl⟩)

end

end Sys2Proof.Machine
end

