-- ==== Sys2Proof/Laws/Engine.lean ====
section
/-! SUPPORT. The receive path, said once: what appending, consuming, delivering, one APPLY and a whole DRAIN do to a
state whose buffer holds a known byte sequence (R131 to R135, R139, R140). -/

namespace Sys2Proof.Machine

/-! ## The parts of the invariant -/

/-- The memory of a sound buffer holds its contents. -/
theorem Contents.holds {s : State} {bytes : List Byte} (h : Contents s bytes) : Holds s.buf bytes := h.2

/-- The bytes of the buffer are unique. -/
theorem Contents.unique {s : State} {b1 b2 : List Byte} (h1 : Contents s b1) (h2 : Contents s b2) : b1 = b2 :=
  List.ext_getElem? fun i => (h1.2 i).symm.trans (h2.2 i)

/-- A sound state's parameters keep the relations (R6). -/
theorem Sound.relations {s : State} (h : Sound s) : s.cfg.Relations := Params.relations h.1

/-- Every scan starts at 1 or later, or behind a byte that is not HEAD (R6, R101, R105). -/
theorem FailsWith.start_ok {cfg : Params} (hp : cfg.Relations) {resync : Bool} {bytes : List Byte}
    {cause : SyncCause} {start : Nat} (h : FailsWith cfg resync bytes cause start) :
    1 ≤ start ∨ bytes[0]? ≠ some cfg.head := by
  cases cause with
  | resync => exact .inl (h.2.2 ▸ hp.resync_pos)
  | head => exact .inr h.2.2.1
  | len => exact .inl (h.2.2.2.2 ▸ hp.len_pos)
  | crc =>
    obtain ⟨-, L, -, -, -, rfl⟩ := h
    unfold crcScanStart
    split
    · exact .inl (by rw [hp.overhead]; omega)
    · exact .inl (Nat.le_refl 1)

/-- A failure is only reported on a buffer of at least MIN_PROBE bytes (R105). -/
theorem FailsWith.probe_le {cfg : Params} {resync : Bool} {bytes : List Byte} {cause : SyncCause} {start : Nat}
    (h : FailsWith cfg resync bytes cause start) : cfg.minProbe ≤ bytes.length := by
  cases cause with
  | resync => exact h.1
  | head => exact h.1
  | len => exact h.1
  | crc => obtain ⟨-, L, hl, -⟩ := h; exact hl.1

/-! ## Append and consume -/

/-- RX_APPEND where the bytes fit (R131). -/
theorem appendBytes_ok {s : State} {bytes data : List Byte} (h : Contents s bytes) (h1 : 1 ≤ data.length)
    (h2 : bytes.length + data.length ≤ s.cfg.bufCap) :
    ∃ m, appendBytes data s = .ok { s with buf := m, fill := bytes.length + data.length } ∧
      Holds m (bytes ++ data) ∧ (s.buf.wf s.cfg.bufCap = true → m.wf s.cfg.bufCap = true) := by
  obtain ⟨hf, hb⟩ := h
  refine ⟨s.buf.writeN bytes.length data, ?_, Holds.writeN hb data, fun hw => Memory.wf_writeN _ _ _ h2 hw⟩
  unfold appendBytes
  rw [hf, if_pos ⟨h1, h2⟩]

/-- RX_APPEND elsewhere (R131). -/
theorem appendBytes_error {s : State} {data : List Byte} (h : data.length = 0 ∨ s.cfg.bufCap < s.fill + data.length) :
    appendBytes data s = .error .appendSize := by
  unfold appendBytes
  rw [if_neg]
  omega

/-- CONSUME inside the contents (R132). -/
theorem consumeBytes_ok {s : State} {bytes : List Byte} (h : Contents s bytes) {k : Nat} (h1 : 1 ≤ k)
    (h2 : k ≤ bytes.length) :
    ∃ m, consumeBytes k s = .ok { s with buf := m, fill := bytes.length - k } ∧
      Holds m (bytes.drop k) ∧ (s.buf.wf s.cfg.bufCap = true → m.wf s.cfg.bufCap = true) := by
  obtain ⟨hf, hb⟩ := h
  refine ⟨s.buf.compact k bytes.length, ?_, Holds.compact hb k, fun hw => Memory.wf_compact _ _ _ hw⟩
  unfold consumeBytes
  rw [hf, if_pos ⟨h1, h2⟩]

/-! ## One APPLY -/

/-- DELIVER of a frame at the front (R133). -/
theorem deliverFrame_ok {s : State} {bytes : List Byte} (h : Contents s bytes) {L : Nat} (hp : s.cfg.Relations)
    (hf : FrameAtFront s.cfg bytes L) :
    ∃ a, bytes[1]? = some a ∧ deliverFrame L s =
      .ok { s with
        msg := { addr := a, len := BitVec.ofNat 8 L, payload := payloadOf bytes L }
        msgValid := true
        wakes := s.wakes + 1 } := by
  obtain ⟨⟨h6, h0, h3, h255, h2⟩, hn, hc⟩ := hf
  obtain ⟨hd, a, l, c, e0, e1, e2, e3, e⟩ := h.holds.readFields (hp.lMin_pos.trans h3) hn
  have hl : l = BitVec.ofNat 8 L := Option.some.inj (e2.symm.trans h2)
  refine ⟨a, e1, ?_⟩
  have hcap : ¬s.cfg.msgCap < (payloadOf bytes L).length := by
    have := hp.payload_le
    simp only [payloadOf, List.length_take, List.length_drop]
    omega
  simp only [deliverFrame, e, hcap, if_false, hl]

/-- APPLY where CHECK waits (R134). -/
theorem applyOnce_waits {s : State} {bytes : List Byte} (h : Contents s bytes) (hp : s.cfg.Relations)
    (hw : Waits s.cfg s.resync bytes) :
    applyOnce s = .ok (.needMoreData, { s with cause := none, result := .outcome .needMoreData }) := by
  have e := h.holds.checkFrame_waits hp hw
  rw [← h.1] at e
  unfold applyOnce
  rw [e]
  rfl

/-- APPLY where CHECK accepts (R134). -/
theorem applyOnce_accepts {s : State} {bytes : List Byte} (h : Contents s bytes) (hp : s.cfg.Relations)
    (hr : s.resync = false) {L : Nat} (hf : FrameAtFront s.cfg bytes L) :
    ∃ a m, bytes[1]? = some a ∧ Holds m (bytes.drop (L + 3)) ∧
      (s.buf.wf s.cfg.bufCap = true → m.wf s.cfg.bufCap = true) ∧
      applyOnce s = .ok (.frameAccepted (L + 3), { s with
        buf := m
        fill := bytes.length - (L + 3)
        resync := false
        bytesRead := counterAdd s.cfg s.bytesRead (L + 3)
        msg := { addr := a, len := BitVec.ofNat 8 L, payload := payloadOf bytes L }
        msgValid := true
        wakes := s.wakes + 1
        cause := none
        result := .outcome (.frameAccepted (L + 3)) }) := by
  let s1 := s.withVerdict { outcome := .frameAccepted (L + 3), resync := false, cause := none }
  have h1 : Contents s1 bytes := h
  obtain ⟨a, ha, hd⟩ := deliverFrame_ok h1 hp hf
  let s2 : State := { s1 with
    msg := { addr := a, len := BitVec.ofNat 8 L, payload := payloadOf bytes L }
    msgValid := true
    wakes := s1.wakes + 1
    bytesRead := counterAdd s.cfg s.bytesRead (L + 3) }
  have h2 : Contents s2 bytes := h
  obtain ⟨m, hm, hh, hw⟩ := consumeBytes_ok h2 (k := L + 3) (by omega) hf.2.1
  refine ⟨a, m, ha, hh, hw, ?_⟩
  have hact : actOn (.frameAccepted (L + 3)) s1 = .ok { s2 with buf := m, fill := bytes.length - (L + 3) } := by
    simp only [actOn, acceptFrame, show s1.cfg.frameOverhead = 3 from hp.overhead, Nat.add_sub_cancel, hd]
    exact hm
  unfold applyOnce
  rw [h.1, hr, h.holds.checkFrame_accepts hp hf]
  simp only [s1] at hact
  simp only [hact, s2, s1]
  rfl

/-- APPLY where a test fails: the discard is of at least one byte (R104, R105, R134). -/
theorem applyOnce_fails {s : State} {bytes : List Byte} (h : Contents s bytes) (hp : s.cfg.Relations)
    {cause : SyncCause} {start : Nat} (hf : FailsWith s.cfg s.resync bytes cause start) :
    ∃ k flag m, Resolves s.cfg.head bytes start (.discardBytes k) flag ∧ 1 ≤ k ∧ k ≤ bytes.length ∧
      Holds m (bytes.drop k) ∧ (s.buf.wf s.cfg.bufCap = true → m.wf s.cfg.bufCap = true) ∧
      applyOnce s = .ok (.discardBytes k, { s with
        buf := m
        fill := bytes.length - k
        resync := flag
        bytesInvalid := counterAdd s.cfg s.bytesInvalid k
        cause := some cause
        result := .outcome (.discardBytes k) }) := by
  obtain ⟨o, flag, hv, hres⟩ := h.holds.raiseSync s.cfg.head start cause
  obtain ⟨k, rfl, hk1, hk2⟩ := hres.range (hf.start_ok hp) (by have := hf.probe_le; have := hp.probe; omega)
  let s1 := s.withVerdict { outcome := .discardBytes k, resync := flag, cause := some cause }
  let s2 : State := { s1 with bytesInvalid := counterAdd s.cfg s.bytesInvalid k }
  have h2 : Contents s2 bytes := h
  obtain ⟨m, hm, hh, hw⟩ := consumeBytes_ok h2 hk1 hk2
  refine ⟨k, flag, m, hres, hk1, hk2, hh, hw, ?_⟩
  have hact : actOn (.discardBytes k) s1 = .ok { s2 with buf := m, fill := bytes.length - k } := hm
  unfold applyOnce
  rw [h.1, h.holds.checkFrame_fails hp hf, hv]
  simp only [s1] at hact
  simp only [hact, s2, s1]
  rfl

/-! ## The receive path as one relation -/

/-- Everything that APPLY steps can do to a state: only these fields change, the account of bytes is kept, the
bytes left are a tail of the bytes before, an unread message stays or is overwritten. -/
structure Receives (s t : State) : Prop where
  frame : t = { s with
    buf := t.buf
    fill := t.fill
    resync := t.resync
    bytesRead := t.bytesRead
    bytesInvalid := t.bytesInvalid
    msg := t.msg
    msgValid := t.msgValid
    draining := t.draining
    result := t.result
    cause := t.cause
    wakes := t.wakes }
  keeps : Sound s → Sound t
  account : accounted t = accounted s
  tail : ∀ bytes, Contents s bytes → ∃ bytes', Contents t bytes' ∧ bytes' <:+ bytes
  slot : s.msgValid = true → t.msgValid = true

theorem Receives.refl (s : State) : Receives s s :=
  ⟨rfl, id, rfl, fun b hb => ⟨b, hb, List.suffix_refl b⟩, id⟩

theorem Receives.trans {s t u : State} (h1 : Receives s t) (h2 : Receives t u) : Receives s u where
  frame := by
    have e1 := h1.frame
    have e2 := h2.frame
    rw [e1] at e2
    exact e2
  keeps := h2.keeps ∘ h1.keeps
  account := h2.account.trans h1.account
  tail b hb := by
    obtain ⟨b1, hb1, hs1⟩ := h1.tail b hb
    obtain ⟨b2, hb2, hs2⟩ := h2.tail b1 hb1
    exact ⟨b2, hb2, hs2.trans hs1⟩
  slot := h2.slot ∘ h1.slot

/-- Changing `draining` and the outputs is part of the relation. -/
theorem Receives.outputs (s : State) (d : Bool) (r : Result) (c : Option SyncCause) (w : Nat) :
    Receives s { s with draining := d, result := r, cause := c, wakes := w } :=
  ⟨rfl, id, rfl, fun b hb => ⟨b, hb, List.suffix_refl b⟩, id⟩

/-- Counting the bytes that leave the buffer keeps the account (R140). -/
theorem account_shift (a b M : Nat) {n k : Nat} (h : k ≤ n) : ((a + k) % M + b + (n - k)) % M = (a + b + n) % M := by
  rw [Nat.add_assoc, Nat.mod_add_mod]
  congr 1
  omega

/-- What one APPLY answers on a sound state: it always answers, within the relation, and either it waits and leaves
the contents as they are, or it consumes at least one byte (R105, R118, R134, R139). -/
theorem applyOnce_receives {s : State} (hi : Sound s) {bytes : List Byte} (h : Contents s bytes) :
    ∃ o t bytes', applyOnce s = .ok (o, t) ∧ Receives s t ∧ Contents t bytes' ∧
      ((o = .needMoreData ∧ bytes' = bytes ∧ Waits s.cfg t.resync bytes) ∨
        (o ≠ .needMoreData ∧ bytes'.length < bytes.length)) := by
  have hp := hi.relations
  have hM : 0 < 2 ^ s.cfg.ctrW := Nat.two_pow_pos _
  obtain ⟨hcfg, ⟨hwf, hcap, -⟩, hslot, hr1, hr2, hr3⟩ := hi
  have hfill := h.1
  rcases codec_cases hp s.resync bytes with hw | ⟨hr, L, hf⟩ | ⟨cause, start, hf⟩
  · refine ⟨_, _, bytes, applyOnce_waits h hp hw, Receives.outputs s _ _ _ _, h, .inl ⟨rfl, rfl, hw⟩⟩
  · obtain ⟨a, m, ha, hh, hmw, he⟩ := applyOnce_accepts h hp hr hf
    have hL := hf.2.1
    refine ⟨_, _, bytes.drop (L + 3), he, ⟨rfl, fun _ => ⟨hcfg, ⟨hmw hwf, ?_, _, ⟨by simp, hh⟩⟩, fun _ => ?_,
      Nat.mod_lt _ hM, hr2, hr3⟩, ?_,
      fun b hb => ?_, fun _ => rfl⟩, ⟨by simp, hh⟩, .inr ⟨by simp, by simp; omega⟩⟩
    · simp only; omega
    · obtain ⟨⟨-, -, h3, h255, -⟩, -, -⟩ := hf
      have := hp.lMax_le
      simp only [toNat_ofNat_length (h255.trans hp.lMax_le), payloadOf, List.length_take, List.length_drop]
      omega
    · simp only [accounted, counterAdd, hfill]
      exact account_shift _ _ _ hL
    · obtain rfl := h.unique hb
      exact ⟨bytes.drop (L + 3), ⟨by simp, hh⟩, List.drop_suffix _ _⟩
  · obtain ⟨k, flag, m, hres, hk1, hk2, hh, hmw, he⟩ := applyOnce_fails h hp hf
    refine ⟨_, _, bytes.drop k, he, ⟨rfl, fun _ => ⟨hcfg, ⟨hmw hwf, ?_, _, ⟨by simp, hh⟩⟩, hslot, hr1,
      Nat.mod_lt _ hM, hr3⟩, ?_,
      fun b hb => ?_, id⟩, ⟨by simp, hh⟩, .inr ⟨by simp, by simp; omega⟩⟩
    · simp only; omega
    · simp only [accounted, counterAdd, hfill]
      rw [Nat.add_comm s.bytesRead, account_shift _ _ _ hk2, Nat.add_comm s.bytesRead]
    · obtain rfl := h.unique hb
      exact ⟨bytes.drop k, ⟨by simp, hh⟩, List.drop_suffix _ _⟩

/-- An empty buffer makes CHECK wait (R135, R139). -/
theorem waits_nil {cfg : Params} (hp : cfg.Relations) (resync : Bool) : Waits cfg resync [] :=
  .inl (by have := hp.probe; simp; omega)

/-- A whole DRAIN on a sound state ends, within the relation, with a buffer on which CHECK waits (R135, R139). -/
theorem drainLoop_receives {fuel : Nat} {s : State} (hi : Sound s) {bytes : List Byte} (h : Contents s bytes)
    (hf : bytes.length < fuel) :
    ∃ t bytes', drainLoop fuel s = .ok t ∧ Receives s t ∧ Contents t bytes' ∧ Waits s.cfg t.resync bytes' ∧
      t.draining = false := by
  induction fuel generalizing s bytes with
  | zero => omega
  | succ fuel ih =>
    obtain ⟨o, t, bytes', he, hr, hc, hcase⟩ := applyOnce_receives hi h
    by_cases hs : drainStops o t
    · refine ⟨{ t with draining := false }, bytes', by simp [drainLoop, he, hs],
        hr.trans (Receives.outputs t _ _ _ _), hc, ?_, rfl⟩
      rcases hcase with ⟨-, rfl, hw⟩ | ⟨ho, -⟩
      · exact hw
      · have : bytes' = [] := by
          rw [← List.length_eq_zero_iff, ← hc.1]
          simpa [drainStops, ho] using hs
        exact this ▸ waits_nil hi.relations _
    · have hlt : bytes'.length < bytes.length := by
        rcases hcase with ⟨rfl, -, -⟩ | ⟨-, hlt⟩
        · simp [drainStops] at hs
        · exact hlt
      obtain ⟨u, b, hu, hru, hcu, hw, hd⟩ := ih (hr.keeps hi) hc (by omega)
      have hcfg : t.cfg = s.cfg := by rw [hr.frame]
      rw [hcfg] at hw
      exact ⟨u, b, by simp [drainLoop, he, hs, hu], hr.trans hru, hcu, hw, hd⟩

theorem drainAll_receives {s : State} (hi : Sound s) {bytes : List Byte} (h : Contents s bytes) :
    ∃ t bytes', drainAll s = .ok t ∧ Receives s t ∧ Contents t bytes' ∧ Waits s.cfg t.resync bytes' ∧
      t.draining = false :=
  drainLoop_receives hi h (by rw [h.1]; omega)

/-- One iteration of DRAIN on a sound state. -/
theorem drainStep_receives {s : State} (hi : Sound s) : ∃ t, drainStep s = .ok t ∧ Receives s t := by
  obtain ⟨-, ⟨-, -, bytes, h⟩, -⟩ := id hi
  obtain ⟨o, t, bytes', he, hr, -⟩ := applyOnce_receives hi h
  exact ⟨_, by rw [drainStep, he], hr.trans (Receives.outputs t _ _ _ _)⟩

/-- DRAIN under either grain of atomicity on a sound state (R38, R135). -/
theorem drainUnder_receives {s : State} (hi : Sound s) : ∃ t, drainUnder s = .ok t ∧ Receives s t := by
  unfold drainUnder
  cases s.cfg.atomicity with
  | iteration => exact drainStep_receives hi
  | drain =>
    obtain ⟨-, ⟨-, -, bytes, h⟩, -⟩ := id hi
    obtain ⟨t, b, ht, hr, -⟩ := drainAll_receives hi h
    exact ⟨t, ht, hr⟩

/-- Ending a DRAIN that may be under way on a sound state (R166). -/
theorem finishDrain_receives {s : State} (hi : Sound s) :
    ∃ t, finishDrain s = .ok t ∧ Receives s t ∧ t.draining = false := by
  unfold finishDrain
  split_ifs with hd
  · obtain ⟨-, ⟨-, -, bytes, h⟩, -⟩ := id hi
    obtain ⟨t, b, ht, hr, -, -, hd'⟩ := drainAll_receives hi h
    exact ⟨t, ht, hr, hd'⟩
  · exact ⟨s, rfl, Receives.refl s, by simpa using hd⟩

/-- What CHECK leaves waiting is shorter than the longest frame, with the flag set than MIN_PROBE (R139). -/
theorem Waits.length_lt {cfg : Params} (hp : cfg.Relations) {resync : Bool} {bytes : List Byte}
    (h : Waits cfg resync bytes) : bytes.length < cfg.frameMax ∧ (resync = true → bytes.length < cfg.minProbe) := by
  have h1 := hp.frameMax
  have h2 := hp.probe
  have h3 := hp.lMin_le
  rcases h with h | ⟨rfl, L, hl, hlt⟩
  · exact ⟨by omega, fun _ => h⟩
  · have := hl.2.2.2.1
    exact ⟨by omega, by simp⟩

end Sys2Proof.Machine
end

