-- ==== Sys2Proof/Laws/Exec.lean ====
section
/-! SUPPORT. What each instruction does where it is enabled, with the gates of R130 and R169 already taken. -/

namespace Sys2Proof.Machine

theorem answer_eq (s : State) (r : Result) : answer s r = .next { s with result := r, cause := none, wakes := 0 } := rfl

theorem answerRead_some {α : Type} (s : State) (a : α) (f : α → Result) :
    answerRead s (some a) f = .next { s with result := f a, cause := none, wakes := 0 } := rfl

/-! ## Operations of a live engine -/

section
variable {s : State} (h : engineLive s = true)
include h

theorem exec_crc8Bit (r : Byte) : exec (.crc8Bit r) s = answer s (.byte (crcBit s.cfg.poly r)) := onEngine_live h _

theorem exec_crc8Byte (r b : Byte) : exec (.crc8Byte r b) s = answer s (.byte (crcByte s.cfg r b)) := onEngine_live h _

theorem exec_crc8Block (data : List Byte) : exec (.crc8Block data) s = answer s (.byte (crc8 s.cfg data)) :=
  onEngine_live h _

theorem exec_stats (w : Counter) :
    exec (.stats w) s = answer { s with bytesWrite := w % 2 ^ s.cfg.ctrW }
      (.stats (w % 2 ^ s.cfg.ctrW) s.bytesRead s.bytesInvalid) := onEngine_live h _

theorem exec_message : exec .message s =
    if s.held = 0 then answer s .none
    else
      match takeMessage s.clearOutputs with
      | some t => .next { t with held := t.held - 1 }
      | none => answer s .held := by
  refine (onEngine_live h _).trans ?_
  split_ifs
  · rfl
  · cases ht : takeMessage s.clearOutputs with
    | none => rfl
    | some t =>
      have hh : t.held = s.held := by
        unfold takeMessage at ht
        split_ifs at ht <;> cases ht <;> rfl
      simp only [hh]

theorem exec_pull : exec .pull s =
    match takeMessage s.clearOutputs with
    | some t => .next t
    | none => .next { s.clearOutputs with held := s.held + 1, result := .held } := onEngine_live h _

theorem exec_getStats : exec .getStats s = answer s (.stats s.bytesWrite s.bytesRead s.bytesInvalid) :=
  onEngine_live h _

theorem exec_exitReq : exec .exitReq s =
    if s.runState = .running then .next { s.clearOutputs with runState := .exitRequested, wakes := 1 }
    else .refused .lifecycleOrder := onEngine_live h _

theorem exec_join : exec .join s =
    if s.runState = .exitRequested then
      if s.draining then .refused .receiverBusy else .next { s.clearOutputs with runState := .joined }
    else .refused .lifecycleOrder := onEngine_live h _

theorem exec_free : exec .free s =
    if s.runState = .joined then .next { s.clearOutputs with runState := .freed, msgValid := false }
    else .refused .lifecycleOrder := onEngine_live h _

end

/-! ## Operations of a live receiver -/

section
variable {s : State} (h : receiverLive s = true)
include h

theorem exec_parseProbe : exec .parseProbe s = answer s (testResult (fun _ => .pass) (probeTest s.cfg s.fill)) :=
  onReceiver_live h _

theorem exec_parseHead : exec .parseHead s =
    if s.fill < 1 then .fault .undefinedByte
    else answerRead s (s.buf.read 0) (fun b => testResult (fun _ => .pass) (headTest s.cfg b)) := onReceiver_live h _

theorem exec_parseLen : exec .parseLen s =
    if s.fill < 3 then .fault .undefinedByte
    else answerRead s (s.buf.read 2) (fun b => testResult .length (lenTest s.cfg b)) := onReceiver_live h _

theorem exec_parseBounds (L : Nat) : exec (.parseBounds L) s =
    if lengthOk s.cfg L = false then .fault .lengthRange
    else answer s (testResult (fun _ => .pass) (boundsTest s.cfg L s.fill)) := onReceiver_live h _

theorem exec_parseFields (L : Nat) : exec (.parseFields L) s =
    if lengthOk s.cfg L = false then .fault .lengthRange
    else if s.fill < L + s.cfg.frameOverhead then .fault .undefinedByte
    else answerRead s (readFields s.buf L) .fields := onReceiver_live h _

theorem exec_crc8Verify (L : Nat) : exec (.crc8Verify L) s =
    if lengthOk s.cfg L = false then .fault .lengthRange
    else if s.fill < L + s.cfg.frameOverhead then .fault .undefinedByte
    else answerRead s (crcVerify s.cfg s.buf L) .boolean := onReceiver_live h _

theorem exec_syncGate : exec .syncGate s = answer s (testResult (fun _ => .pass) (gateTest s.cfg s.resync)) :=
  onReceiver_live h _

theorem exec_syncScan (start : Nat) :
    exec (.syncScan start) s = answerRead s (scan s.cfg.head s.buf start s.fill) scanAnswer := onReceiver_live h _

theorem exec_syncResolve (start : Nat) (cause : SyncCause) : exec (.syncResolve start cause) s =
    if scanStartOk s.cfg s.buf start cause = false ∨ s.fill < s.cfg.minProbe then .fault .resolveRange
    else
      match raiseSync s.cfg.head s.buf s.fill start cause with
      | none => .fault .undefinedByte
      | some v => .next (s.clearOutputs.withVerdict v) := onReceiver_live h _

theorem exec_check : exec .check s =
    match checkFrame s.cfg s.resync s.buf s.fill with
    | none => .fault .undefinedByte
    | some v => .next (s.clearOutputs.withVerdict v) := onReceiver_live h _

theorem exec_rxAppend (data : List Byte) : exec (.rxAppend data) s =
    match finishDrain s.clearOutputs with
    | .error f => .fault f
    | .ok t => settle (withoutResult (appendBytes data t)) := onReceiver_live h _

theorem exec_consume (m : Nat) : exec (.consume m) s = settle (consumeBytes m s.clearOutputs) := onReceiver_live h _

theorem exec_deliver (L : Nat) : exec (.deliver L) s =
    if frameAt s.cfg s.buf s.fill L then settle (deliverFrame L s.clearOutputs) else .fault .noAcceptedFrame :=
  onReceiver_live h _

theorem exec_apply : exec .apply s =
    match applyOnce s.clearOutputs with
    | .error f => .fault f
    | .ok (o, t) => .next { t with draining := s.draining && !drainStops o t } := onReceiver_live h _

theorem exec_drain : exec .drain s = settle (withoutResult (drainUnder s.clearOutputs)) := onReceiver_live h _

theorem exec_rxEvent (r : ReadResult) : exec (.rxEvent r) s = settle (receiveEvent r s.clearOutputs) :=
  onReceiver_live h _

theorem exec_frame (addr len crc : Byte) (payload : List Byte) : exec (.frame addr len payload crc) s =
    settle (receiveEvent (.data (frameBytes s.cfg.head addr len payload crc)) s.clearOutputs) := onReceiver_live h _

theorem exec_outcomeNeedMoreData :
    exec .outcomeNeedMoreData s = settle (applyAnswering .needMoreData s.clearOutputs) := onReceiver_live h _

theorem exec_outcomeFrameAccepted (n : Nat) :
    exec (.outcomeFrameAccepted n) s = settle (applyAnswering (.frameAccepted n) s.clearOutputs) := onReceiver_live h _

theorem exec_outcomeDiscardBytes (n : Nat) :
    exec (.outcomeDiscardBytes n) s = settle (applyAnswering (.discardBytes n) s.clearOutputs) := onReceiver_live h _

/-- The row of an outcome is the APPLY that answers it, and stops where APPLY answers another (R58, R134, log 3). -/
theorem exec_outcomeInstr (o : CheckOutcome) :
    exec (outcomeInstr o) s = settle (applyAnswering o s.clearOutputs) := by
  cases o
  · exact exec_outcomeNeedMoreData h
  · exact exec_outcomeFrameAccepted h _
  · exact exec_outcomeDiscardBytes h _

end

/-! ## The tests' results -/

/-- PARSE.PROBE (R85). -/
theorem testResult_probe (cfg : Params) (n : Nat) :
    testResult (fun _ => .pass) (probeTest cfg n) = if n < cfg.minProbe then .outcome .needMoreData else .pass := by
  unfold probeTest
  by_cases h : n < cfg.minProbe
  · rw [if_pos h, if_pos h]; rfl
  · rw [if_neg h, if_neg h]; rfl

/-- PARSE.HEAD (R86). -/
theorem testResult_head (cfg : Params) (b : Byte) :
    testResult (fun _ => .pass) (headTest cfg b) =
      if b = cfg.head then .pass else .syncError .head cfg.scanStartHead := by
  unfold headTest
  by_cases h : b = cfg.head
  · rw [if_neg (not_not.mpr h), if_pos h]; rfl
  · rw [if_pos h, if_neg h]; rfl

/-- PARSE.LEN (R87). -/
theorem testResult_len (cfg : Params) (b : Byte) :
    testResult .length (lenTest cfg b) =
      if b.toNat < cfg.lMin ∨ cfg.lMax < b.toNat then .syncError .len cfg.scanStartLen else .length b.toNat := by
  unfold lenTest
  by_cases h : b.toNat < cfg.lMin ∨ cfg.lMax < b.toNat
  · rw [if_pos (by exact h), if_pos h]; rfl
  · rw [if_neg (by exact h), if_neg h]; rfl

/-- PARSE.BOUNDS (R88). -/
theorem testResult_bounds (cfg : Params) (L n : Nat) :
    testResult (fun _ => .pass) (boundsTest cfg L n) =
      if n < L + cfg.frameOverhead then .outcome .needMoreData else .pass := by
  unfold boundsTest
  by_cases h : n < L + cfg.frameOverhead
  · rw [if_pos h, if_pos h]; rfl
  · rw [if_neg h, if_neg h]; rfl

/-- SYNC.GATE (R100). -/
theorem testResult_gate (cfg : Params) (resync : Bool) :
    testResult (fun _ => .pass) (gateTest cfg resync) =
      if resync = true then .syncError .resync cfg.scanStartResync else .pass := by
  cases resync <;> rfl

/-- The operand `L` in its range (R75). -/
theorem lengthOk_iff (cfg : Params) (L : Nat) : lengthOk cfg L = true ↔ cfg.lMin ≤ L ∧ L ≤ cfg.lMax := by
  unfold lengthOk
  rw [Bool.and_eq_true, decide_eq_true_eq, decide_eq_true_eq]

/-! ## CHECK on a buffer of known content -/

section
variable {s : State} {bytes : List Byte} (h : Contents s bytes)
include h

/-- SYNC.SCAN (R102). -/
theorem Contents.scan (start : Nat) :
    (∃ j, Machine.scan s.cfg.head s.buf start s.fill = some (.found j) ∧ FirstHead s.cfg.head bytes start j) ∨
      (Machine.scan s.cfg.head s.buf start s.fill = some .notFound ∧ NoHead s.cfg.head bytes start) := by
  rw [h.1]
  exact h.holds.scan _ start

/-- SYNC.RESOLVE (R104). -/
theorem Contents.raiseSync (start : Nat) (cause : SyncCause) :
    ∃ o flag, Machine.raiseSync s.cfg.head s.buf s.fill start cause =
        some { outcome := o, resync := flag, cause := some cause } ∧ Resolves s.cfg.head bytes start o flag := by
  rw [h.1]
  exact h.holds.raiseSync _ start cause

/-- CHECK waits (R116). -/
theorem Contents.checkFrame_waits (hp : s.cfg.Relations) (hw : Waits s.cfg s.resync bytes) :
    checkFrame s.cfg s.resync s.buf s.fill =
      some { outcome := .needMoreData, resync := s.resync, cause := none } := by
  rw [h.1]
  exact h.holds.checkFrame_waits hp hw

/-- CHECK accepts (R116). -/
theorem Contents.checkFrame_accepts (hp : s.cfg.Relations) (hr : s.resync = false) {L : Nat}
    (hf : FrameAtFront s.cfg bytes L) :
    checkFrame s.cfg s.resync s.buf s.fill =
      some { outcome := .frameAccepted (L + 3), resync := s.resync, cause := none } := by
  rw [h.1, hr]
  exact h.holds.checkFrame_accepts hp hf

/-- CHECK fails (R116, R156). -/
theorem Contents.checkFrame_fails (hp : s.cfg.Relations) {cause : SyncCause} {start : Nat}
    (hf : FailsWith s.cfg s.resync bytes cause start) :
    ∃ o flag, checkFrame s.cfg s.resync s.buf s.fill =
        some { outcome := o, resync := flag, cause := some cause } ∧ Resolves s.cfg.head bytes start o flag := by
  rw [h.1, h.holds.checkFrame_fails hp hf]
  exact h.holds.raiseSync _ start cause

end

/-- The front of the buffer holds a CRC-valid frame: what DELIVER asks for (R133). -/
theorem Contents.frameAt_iff {s : State} {bytes : List Byte} (h : Contents s bytes) (hp : s.cfg.Relations) (L : Nat)
    (h6 : s.cfg.minProbe ≤ bytes.length) : frameAt s.cfg s.buf s.fill L = true ↔ FrameAtFront s.cfg bytes L := by
  obtain ⟨hf, hb⟩ := h
  unfold frameAt FrameAtFront LegalHeader lengthOk
  rw [hf, hb, hb, hp.overhead]
  by_cases hL : L + 3 ≤ bytes.length
  · rw [Holds.crcVerify s.cfg hb hL]
    simp only [Bool.and_eq_true, decide_eq_true_eq, Option.some.injEq]
    tauto
  · simp [hL]

end Sys2Proof.Machine
end

