-- ==== Sys2Proof/Laws/Drain.lean ====
section
/-! SUPPORT. APPLY and DRAIN neither read nor need the model's outputs and `draining`; a whole DRAIN is one APPLY
followed by a DRAIN of what is left; a row OUTCOME.* is the APPLY that answers it (R134, R135, log 3, log 9). -/

namespace Sys2Proof.Machine

/-- The outputs and `draining` overwritten, with `k` wake-up events more. -/
def State.retag (d : Bool) (r : Result) (c : Option SyncCause) (k : Nat) (s : State) : State :=
  { s with draining := d, result := r, cause := c, wakes := k + s.wakes }

section
variable (d : Bool) (r : Result) (c : Option SyncCause) (k : Nat)

theorem consumeBytes_retag (m : Nat) (s : State) :
    consumeBytes m (s.retag d r c k) = (consumeBytes m s).map (State.retag d r c k) := by
  unfold consumeBytes
  by_cases h : 1 ≤ m ∧ m ≤ s.fill
  · rw [if_pos h, if_pos (by exact h)]; rfl
  · rw [if_neg h, if_neg (by exact h)]; rfl

theorem deliverFrame_retag (L : Nat) (s : State) :
    deliverFrame L (s.retag d r c k) = (deliverFrame L s).map (State.retag d r c k) := by
  unfold deliverFrame
  show (match readFields s.buf L with | none => _ | some f => _) = _
  cases readFields s.buf L with
  | none => rfl
  | some f =>
    simp only
    by_cases h : s.cfg.msgCap < f.payload.length
    · rw [if_pos h, if_pos (by exact h)]; rfl
    · rw [if_neg h, if_neg (by exact h)]; rfl

theorem acceptFrame_retag (n : Nat) (s : State) :
    acceptFrame n (s.retag d r c k) = (acceptFrame n s).map (State.retag d r c k) := by
  unfold acceptFrame
  rw [show (s.retag d r c k).cfg = s.cfg from rfl, deliverFrame_retag]
  cases deliverFrame (n - s.cfg.frameOverhead) s with
  | error f => rfl
  | ok t => exact consumeBytes_retag d r c k n { t with bytesRead := counterAdd s.cfg t.bytesRead n }

theorem actOn_retag (o : CheckOutcome) (s : State) :
    actOn o (s.retag d r c k) = (actOn o s).map (State.retag d r c k) := by
  cases o
  · rfl
  · exact acceptFrame_retag ..
  · exact consumeBytes_retag d r c k _ { s with bytesInvalid := counterAdd s.cfg s.bytesInvalid _ }

end

/-- An APPLY sets the outcome it returns as its result, and leaves `draining` (R134). -/
theorem applyOnce_outputs {s t : State} {o : CheckOutcome} (h : applyOnce s = .ok (o, t)) :
    t.result = .outcome o ∧ t.draining = s.draining := by
  unfold applyOnce at h
  cases hv : checkFrame s.cfg s.resync s.buf s.fill with
  | none => simp only [hv] at h; cases h
  | some v =>
    simp only [hv] at h
    cases ha : actOn v.outcome (s.withVerdict v) with
    | error f => simp only [ha] at h; cases h
    | ok u =>
      simp only [ha] at h
      cases h
      have e := actOn_retag s.draining (.outcome v.outcome) v.cause 0 v.outcome (s.withVerdict v)
      rw [show (s.withVerdict v).retag s.draining (.outcome v.outcome) v.cause 0 = s.withVerdict v by
        simp [State.retag, State.withVerdict], ha] at e
      have := Except.ok.inj e
      constructor <;> rw [this] <;> rfl

/-- APPLY on a state with other outputs (R134). -/
theorem applyOnce_retag (d : Bool) (r : Result) (c : Option SyncCause) (k : Nat) (s : State) :
    applyOnce (s.retag d r c k) =
      (applyOnce s).map fun p => (p.1, { p.2 with draining := d, wakes := k + p.2.wakes }) := by
  unfold applyOnce
  show (match checkFrame s.cfg s.resync s.buf s.fill with | none => _ | some v => _) = _
  cases checkFrame s.cfg s.resync s.buf s.fill with
  | none => rfl
  | some v =>
    simp only
    have e := actOn_retag d (.outcome v.outcome) v.cause k v.outcome (s.withVerdict v)
    have e0 := actOn_retag s.draining (.outcome v.outcome) v.cause 0 v.outcome (s.withVerdict v)
    rw [show (s.withVerdict v).retag s.draining (.outcome v.outcome) v.cause 0 = s.withVerdict v by
      simp [State.retag, State.withVerdict]] at e0
    rw [show (s.withVerdict v).retag d (.outcome v.outcome) v.cause k = (s.retag d r c k).withVerdict v from rfl] at e
    rw [e]
    cases ha : actOn v.outcome (s.withVerdict v) with
    | error f => rfl
    | ok u =>
      rw [ha] at e0
      have hu := Except.ok.inj e0
      simp only [Except.map]
      congr 2
      rw [hu]
      simp [State.retag]

/-- The loop of DRAIN on a state with other `draining` and more wake-up events (R135). -/
theorem drainLoop_wakes (fuel : Nat) (d : Bool) (k : Nat) (s : State) :
    drainLoop fuel (s.retag d s.result s.cause k) =
      (drainLoop fuel s).map fun t => { t with wakes := k + t.wakes } := by
  induction fuel generalizing s with
  | zero => rfl
  | succ fuel ih =>
    rw [drainLoop, drainLoop, applyOnce_retag]
    cases applyOnce s with
    | error f => rfl
    | ok p =>
      obtain ⟨o, t⟩ := p
      simp only [Except.map]
      by_cases h : drainStops o t
      · rw [if_pos h, if_pos (by exact h)]
      · rw [if_neg h, if_neg (by exact h)]
        exact ih t

/-- A whole DRAIN on a state with other outputs (R135). -/
theorem drainAll_retag (d : Bool) (r : Result) (c : Option SyncCause) (k : Nat) (s : State) :
    drainAll (s.retag d r c k) = (drainAll s).map fun t => { t with wakes := k + t.wakes } := by
  show drainLoop (s.fill + 1) (s.retag d r c k) = (drainLoop (s.fill + 1) s).map _
  rw [← drainLoop_wakes (s.fill + 1) d, drainLoop, drainLoop, applyOnce_retag, applyOnce_retag]

/-- More fuel than bytes changes nothing on a sound state (R139). -/
theorem drainLoop_fuel {n n' : Nat} {s : State} (hi : Sound s) (h : s.fill < n) (h' : s.fill < n') :
    drainLoop n s = drainLoop n' s := by
  induction n generalizing s n' with
  | zero => omega
  | succ n ih =>
    obtain ⟨m, rfl⟩ : ∃ m, n' = m + 1 := ⟨n' - 1, by omega⟩
    obtain ⟨bytes, hc⟩ := hi.2.1.2.2
    obtain ⟨o, t, bytes', he, hr, hct, hcase⟩ := applyOnce_receives hi hc
    simp only [drainLoop, he]
    by_cases hs : drainStops o t
    · rw [if_pos hs, if_pos hs]
    · simp only [hs, Bool.false_eq_true, if_false]
      have hlt : t.fill < s.fill := by
        rcases hcase with ⟨rfl, -, -⟩ | ⟨-, hlt⟩
        · simp [drainStops] at hs
        · rw [hct.1, hc.1]; exact hlt
      exact ih (hr.keeps hi) (by omega) (by omega)

/-- A whole DRAIN is one APPLY, after which the loop ends or a whole DRAIN follows (R135). -/
theorem drainAll_unroll {s t : State} {o : CheckOutcome} (hi : Sound s) (h : applyOnce s = .ok (o, t)) :
    drainAll s = if drainStops o t then .ok { t with draining := false } else drainAll t := by
  show drainLoop (s.fill + 1) s = _
  simp only [drainLoop, h]
  by_cases hs : drainStops o t
  · rw [if_pos hs, if_pos hs]
  · simp only [hs, Bool.false_eq_true, if_false]
    obtain ⟨bytes, hc⟩ := hi.2.1.2.2
    obtain ⟨o', t', bytes', he, hr, hct, hcase⟩ := applyOnce_receives hi hc
    obtain ⟨rfl, rfl⟩ := Prod.mk.inj (Except.ok.inj (h.symm.trans he))
    refine drainLoop_fuel (hr.keeps hi) ?_ (by omega)
    rcases hcase with ⟨rfl, -, -⟩ | ⟨-, hlt⟩
    · simp [drainStops] at hs
    · rw [hct.1, hc.1]; exact hlt

/-- What the row of an outcome does, once: APPLY if it answers that outcome, else it stops (R119, R134, log 3). -/
theorem applyAnswering_eq {s t : State} {o' : CheckOutcome} (h : applyOnce s = .ok (o', t)) (o : CheckOutcome) :
    applyAnswering o s =
      if o' = o then .ok { t with draining := s.draining && !drainStops o' t } else .error .outcomeNotAnswered := by
  unfold applyAnswering
  rw [h]

/-- Where the row of an outcome completes, it is what APPLY does (R119, R134, log 3). -/
theorem applyAnswering_ok {s t : State} {o : CheckOutcome} (h : applyAnswering o s = .ok t) :
    ∃ u, applyOnce s = .ok (o, u) ∧ t = { u with draining := s.draining && !drainStops o u } := by
  unfold applyAnswering at h
  cases ha : applyOnce s with
  | error f => rw [ha] at h; cases h
  | ok p =>
    obtain ⟨o', u⟩ := p
    rw [ha] at h
    simp only at h
    split_ifs at h with ho
    subst ho
    exact ⟨u, rfl, (Except.ok.inj h).symm⟩

end Sys2Proof.Machine
end

