-- ==== Sys2Proof/Laws/Frame.lean ====
section
/-! SUPPORT. What the receive path leaves alone, in every state, sound or not (R26). -/

namespace Sys2Proof.Machine

/-- Only fields of the receive path and the model's outputs change, and a message that waits is never taken away. -/
structure RxFrame (s t : State) : Prop where
  frame : t = { s with
    buf := t.buf
    fill := t.fill
    resync := t.resync
    bytesRead := t.bytesRead
    bytesInvalid := t.bytesInvalid
    msg := t.msg
    msgValid := t.msgValid
    rxHalted := t.rxHalted
    draining := t.draining
    result := t.result
    cause := t.cause
    wakes := t.wakes }
  slot : s.msgValid = true → t.msgValid = true
  halted : s.rxHalted = true → t.rxHalted = true

theorem RxFrame.refl (s : State) : RxFrame s s := ⟨rfl, id, id⟩

theorem RxFrame.trans {s t u : State} (h1 : RxFrame s t) (h2 : RxFrame t u) : RxFrame s u where
  frame := by
    have e1 := h1.frame
    have e2 := h2.frame
    rw [e1] at e2
    exact e2
  slot := h2.slot ∘ h1.slot
  halted := h2.halted ∘ h1.halted

/-- Changing the outputs, the flag or `draining` is inside the frame. -/
theorem RxFrame.outputs (s : State) (f d : Bool) (r : Result) (c : Option SyncCause) (w : Nat) :
    RxFrame s { s with resync := f, draining := d, result := r, cause := c, wakes := w } :=
  ⟨rfl, id, id⟩

theorem appendBytes_frame {data : List Byte} {s t : State} (h : appendBytes data s = .ok t) : RxFrame s t := by
  unfold appendBytes at h
  split_ifs at h
  cases h
  exact ⟨rfl, id, id⟩

theorem consumeBytes_frame {m : Nat} {s t : State} (h : consumeBytes m s = .ok t) : RxFrame s t := by
  unfold consumeBytes at h
  split_ifs at h
  cases h
  exact ⟨rfl, id, id⟩

theorem deliverFrame_frame {L : Nat} {s t : State} (h : deliverFrame L s = .ok t) : RxFrame s t := by
  unfold deliverFrame at h
  split at h
  · cases h
  · split_ifs at h
    cases h
    exact ⟨rfl, fun _ => rfl, id⟩

theorem acceptFrame_frame {n : Nat} {s t : State} (h : acceptFrame n s = .ok t) : RxFrame s t := by
  unfold acceptFrame at h
  split at h
  · cases h
  · rename_i s' hs
    have hc : RxFrame s' { s' with bytesRead := counterAdd s.cfg s'.bytesRead n } := ⟨rfl, id, id⟩
    exact ((deliverFrame_frame hs).trans hc).trans (consumeBytes_frame h)

theorem discardFront_frame {n : Nat} {s t : State} (h : discardFront n s = .ok t) : RxFrame s t := by
  have : RxFrame s { s with bytesInvalid := counterAdd s.cfg s.bytesInvalid n } := ⟨rfl, id, id⟩
  exact this.trans (consumeBytes_frame h)

theorem actOn_frame {o : CheckOutcome} {s t : State} (h : actOn o s = .ok t) : RxFrame s t := by
  cases o with
  | needMoreData => cases h; exact RxFrame.refl s
  | frameAccepted n => exact acceptFrame_frame h
  | discardBytes n => exact discardFront_frame h

theorem applyOnce_frame {o : CheckOutcome} {s t : State} (h : applyOnce s = .ok (o, t)) : RxFrame s t := by
  unfold applyOnce at h
  split at h
  · cases h
  · split at h
    · cases h
    · rename_i v _ _ s' hs
      cases h
      have : RxFrame s (s.withVerdict v) := ⟨rfl, id, id⟩
      exact this.trans (actOn_frame hs)

theorem applyAnswering_frame {o : CheckOutcome} {s t : State} (h : applyAnswering o s = .ok t) : RxFrame s t := by
  unfold applyAnswering at h
  split at h
  · cases h
  · rename_i hs
    split_ifs at h
    cases h
    exact (applyOnce_frame hs).trans ⟨rfl, id, id⟩

theorem drainLoop_frame {fuel : Nat} {s t : State} (h : drainLoop fuel s = .ok t) : RxFrame s t := by
  induction fuel generalizing s with
  | zero => cases h; exact ⟨rfl, id, id⟩
  | succ fuel ih =>
    unfold drainLoop at h
    split at h
    · cases h
    · rename_i o s' hs
      split_ifs at h
      · cases h
        exact (applyOnce_frame hs).trans ⟨rfl, id, id⟩
      · exact (applyOnce_frame hs).trans (ih h)

theorem drainStep_frame {s t : State} (h : drainStep s = .ok t) : RxFrame s t := by
  unfold drainStep at h
  split at h
  · cases h
  · rename_i o s' hs
    cases h
    exact (applyOnce_frame hs).trans ⟨rfl, id, id⟩

theorem drainUnder_frame {s t : State} (h : drainUnder s = .ok t) : RxFrame s t := by
  unfold drainUnder at h
  split at h
  · exact drainLoop_frame h
  · exact drainStep_frame h

theorem finishDrain_frame {s t : State} (h : finishDrain s = .ok t) : RxFrame s t := by
  unfold finishDrain at h
  split_ifs at h
  · exact drainLoop_frame h
  · cases h; exact RxFrame.refl s

theorem withoutResult_ok {e : Except Fault State} {t : State} (h : withoutResult e = .ok t) :
    ∃ u, e = .ok u ∧ t = { u with result := .none } := by
  cases e with
  | error f => cases h
  | ok u => exact ⟨u, rfl, (Except.ok.inj h).symm⟩

theorem receiveRead_frame {r : ReadResult} {s t : State} (h : receiveRead r s = .ok t) : RxFrame s t := by
  cases r with
  | data data =>
    simp only [receiveRead, receiveData] at h
    split at h
    · cases h
    · rename_i s' hs
      exact (appendBytes_frame hs).trans (drainUnder_frame h)
  | wouldBlock => cases h; exact RxFrame.refl s
  | eof => cases h; exact ⟨rfl, id, fun _ => rfl⟩
  | err => cases h; exact ⟨rfl, id, fun _ => rfl⟩

theorem receiveEvent_frame {r : ReadResult} {s t : State} (h : receiveEvent r s = .ok t) : RxFrame s t := by
  unfold receiveEvent at h
  split at h
  · cases h
  · rename_i s' hs
    obtain ⟨u, hu, rfl⟩ := withoutResult_ok h
    exact ((finishDrain_frame hs).trans (receiveRead_frame hu)).trans ⟨rfl, id, id⟩

/-- Clearing the outputs is inside the frame. -/
theorem RxFrame.clear (s : State) : RxFrame s s.clearOutputs := ⟨rfl, id, id⟩

/-- Taking the message changes the slot's valid bit and the result only (R137). -/
theorem takeMessage_cases {s t : State} (h : takeMessage s = some t) :
    (s.msgValid = true ∧ t = { s with msgValid := false, result := .message s.msg }) ∨
      (s.msgValid = false ∧ shuttingDown s = true ∧ t = { s with result := .shutdown }) := by
  unfold takeMessage at h
  split_ifs at h with h1 h2 <;> cases h
  · exact .inl ⟨h1, rfl⟩
  · exact .inr ⟨by simpa using h1, h2, rfl⟩

/-- When no result is to be had (R42, R137). -/
theorem takeMessage_none {s : State} : takeMessage s = none ↔ s.msgValid = false ∧ shuttingDown s = false := by
  unfold takeMessage
  cases s.msgValid <;> cases hs : shuttingDown s <;> simp

end Sys2Proof.Machine
end

