-- ==== Sys2Proof/Laws/PerInstr.lean ====
section
/-! SUPPORT. One law per constructor: the encoder puts each instruction into the format and under the number that the
opcode table gives its row (R50, R58, R62, R63, R64). -/

namespace Sys2Proof.Laws

/-- The operation number of a row of R64; none for a format row. -/
def TableNumber.number : Instr → Option (BitVec 5)
  | .frame _ _ _ _ => none
  | .outcomeNeedMoreData => none
  | .outcomeFrameAccepted _ => none
  | .outcomeDiscardBytes _ => none
  | .stats _ => none
  | .message => none
  | .crc8Bit _ => some 0
  | .crc8Byte _ _ => some 1
  | .crc8Block _ => some 2
  | .crc8Verify _ => some 3
  | .parseProbe => some 4
  | .parseHead => some 5
  | .parseLen => some 6
  | .parseBounds _ => some 7
  | .parseFields _ => some 8
  | .syncGate => some 9
  | .syncScan _ => some 10
  | .syncResolve _ _ => some 11
  | .check => some 12
  | .rxAppend _ => some 13
  | .consume _ => some 14
  | .deliver _ => some 15
  | .apply => some 16
  | .drain => some 17
  | .rxEvent _ => some 18
  | .pull => some 19
  | .getStats => some 20
  | .exitReq => some 21
  | .join => some 22
  | .free => some 23
  | .reset _ _ _ => some 24

/-- Whether a packet is of the format that a format row has; operations have their own. -/
def TableNumber.format (head : Byte) (i : Instr) (p : Packet) : Prop :=
  match TableNumber.number i, p with
  | some n, .op k _ => k = n
  | some _, _ => False
  | none, .op _ _ => False
  | none, .wire bytes => bytes.head? = some head
  | none, .outcome _ => True
  | none, .status _ _ _ => True
  | none, .message => True

/-- The encoder's packet is of the row's format, with the row's number (R64) or the row's leading byte (R50). -/
def TableNumber.Statement (i : Instr) : Prop := ∀ cfg : Params, TableNumber.format cfg.head i (encode cfg i)

theorem TableNumber.frame (addr len : Byte) (payload : List Byte) (crc : Byte) :
    TableNumber.Statement (.frame addr len payload crc) := fun _ => rfl
theorem TableNumber.outcomeNeedMoreData : TableNumber.Statement .outcomeNeedMoreData := fun _ => trivial
theorem TableNumber.outcomeFrameAccepted (n : Nat) : TableNumber.Statement (.outcomeFrameAccepted n) := fun _ => trivial
theorem TableNumber.outcomeDiscardBytes (n : Nat) : TableNumber.Statement (.outcomeDiscardBytes n) := fun _ => trivial
theorem TableNumber.stats (w : Counter) : TableNumber.Statement (.stats w) := fun _ => trivial
theorem TableNumber.message : TableNumber.Statement .message := fun _ => trivial
theorem TableNumber.crc8Bit (r : Byte) : TableNumber.Statement (.crc8Bit r) := fun _ => rfl
theorem TableNumber.crc8Byte (r b : Byte) : TableNumber.Statement (.crc8Byte r b) := fun _ => rfl
theorem TableNumber.crc8Block (s : List Byte) : TableNumber.Statement (.crc8Block s) := fun _ => rfl
theorem TableNumber.crc8Verify (L : Nat) : TableNumber.Statement (.crc8Verify L) := fun _ => rfl
theorem TableNumber.parseProbe : TableNumber.Statement .parseProbe := fun _ => rfl
theorem TableNumber.parseHead : TableNumber.Statement .parseHead := fun _ => rfl
theorem TableNumber.parseLen : TableNumber.Statement .parseLen := fun _ => rfl
theorem TableNumber.parseBounds (L : Nat) : TableNumber.Statement (.parseBounds L) := fun _ => rfl
theorem TableNumber.parseFields (L : Nat) : TableNumber.Statement (.parseFields L) := fun _ => rfl
theorem TableNumber.syncGate : TableNumber.Statement .syncGate := fun _ => rfl
theorem TableNumber.syncScan (start : Nat) : TableNumber.Statement (.syncScan start) := fun _ => rfl
theorem TableNumber.syncResolve (start : Nat) (cause : SyncCause) :
    TableNumber.Statement (.syncResolve start cause) := fun _ => rfl
theorem TableNumber.check : TableNumber.Statement .check := fun _ => rfl
theorem TableNumber.rxAppend (s : List Byte) : TableNumber.Statement (.rxAppend s) := fun _ => rfl
theorem TableNumber.consume (m : Nat) : TableNumber.Statement (.consume m) := fun _ => rfl
theorem TableNumber.deliver (L : Nat) : TableNumber.Statement (.deliver L) := fun _ => rfl
theorem TableNumber.apply : TableNumber.Statement .apply := fun _ => rfl
theorem TableNumber.drain : TableNumber.Statement .drain := fun _ => rfl
theorem TableNumber.rxEvent (r : ReadResult) : TableNumber.Statement (.rxEvent r) := fun _ => rfl
theorem TableNumber.pull : TableNumber.Statement .pull := fun _ => rfl
theorem TableNumber.getStats : TableNumber.Statement .getStats := fun _ => rfl
theorem TableNumber.exitReq : TableNumber.Statement .exitReq := fun _ => rfl
theorem TableNumber.join : TableNumber.Statement .join := fun _ => rfl
theorem TableNumber.free : TableNumber.Statement .free := fun _ => rfl
theorem TableNumber.reset (d : BitVec 32) (k : DescriptorKind) (c : Construction) :
    TableNumber.Statement (.reset d k c) := fun _ => rfl

end Sys2Proof.Laws
end

