-- ==== Sys2Proof/Tests/Slice0.lean ====
section
/-! SUPPORT. The tests: the WellFormed smoke, words written out from the spec's encodings, the vectors of
spec/95_test_vectors.md (named by their number), and for every statement with hypotheses a witness that meets them. -/

namespace Sys2Proof.Tests

set_option Elab.async false

open Sys2Proof.Machine

/-! ## Helpers -/

/-- The values of R5 with a fixed value for each OPEN parameter, so that the kernel can evaluate a step. -/
def params : Params := { Config.params with eofSetsExit := false, shutdownLen := -1 }

/-- Other parameters that keep the relations of R6: each literal changed, CRC_REFLECT and SCAN_START_HEAD = 0 too. -/
def otherParams : Params :=
  { params with
    head := 0x7E, poly := 0x31, crcInit := 0xFF, crcXorOut := 0x55, crcReflect := .reversed
    lMin := 2, lMax := 64, minProbe := 5, bufCap := 128, msgCap := 64, ctrW := 16, outcomeW := 8
    scanStartResync := 2, scanStartHead := 0, scanStartLen := 1 }

/-- A fresh engine whose buffer holds these bytes. -/
def holding (bytes : List Byte) : State :=
  { State.fresh params 0 .liveBus [] with buf := Memory.writeN [] 0 bytes, fill := bytes.length }

/-- A state under other parameters. -/
def under (p : Params) (s : State) : State := { s with cfg := p }

/-- What holds after a next state. -/
def after {α : Type} (o : Host.Outcome State Fault Refusal) (f : State → α) : Option α :=
  match o with
  | .next t => some (f t)
  | .fault _ => none
  | .refused _ => none

/-- The fault of a step that stops. -/
def faultOf (o : Host.Outcome State Fault Refusal) : Option Fault :=
  match o with
  | .next _ => none
  | .fault f => some f
  | .refused _ => none

/-- The valid bytes of a state's buffer. -/
def bytesOf (s : State) : Option (List Byte) := s.buf.readN 0 s.fill

/-- Result, flag and cause: what a CHECK shows. -/
def shown (s : State) : Result × Bool × Option SyncCause := (s.result, s.resync, s.cause)

theorem contents_holding (bytes : List Byte) : Contents (holding bytes) bytes := by
  refine ⟨rfl, fun i => ?_⟩
  exact Holds.writeN holds_nil bytes i

theorem sound_holding (bytes : List Byte) (h : bytes.length ≤ 4096) : Sound (holding bytes) := by
  refine ⟨rfl, ⟨Memory.wf_writeN _ _ _ ?_ rfl, h, bytes, contents_holding bytes⟩, ?_, ?_, ?_, ?_⟩
  · rw [Nat.zero_add]
    exact h
  · intro hv
    cases hv
  all_goals exact Nat.two_pow_pos 32

/-- Frame A of spec/95 section 3. -/
def frameA : List Byte := [0xF7, 0x01, 0x03, 0x01, 0x02, 0xA6]

/-- Frame B of spec/95 section 3. -/
def frameB : List Byte := [0xF7, 0x02, 0x04, 0x0A, 0x0B, 0x0C, 0x6C]

/-- Frame C of spec/95 section 3. -/
def frameC : List Byte := [0xF7, 0x10, 0x05, 0xAA, 0xF7, 0x55, 0x00, 0xB9]

theorem frameA_at_front : FrameAtFront params frameA 3 := by
  unfold FrameAtFront LegalHeader
  decide +kernel

theorem frameC_at_front : FrameAtFront params frameC 5 := by
  unfold FrameAtFront LegalHeader
  decide +kernel

/-- A window of the greatest length byte with ADDR 0 and PAYLOAD zero, up to the CRC8 byte. -/
def longBody : List Byte := 0xF7 :: 0x00 :: 0xFF :: List.replicate 254 0

/-- The largest frame. -/
def longFrame : List Byte := longBody ++ [crc8 params (spanOf longBody 255)]

/-! ## WellFormed refuses ill-formed terms -/

theorem test_wf_frame_len : WellFormed params (.frame 1 2 [1] 0) = false := by decide
theorem test_wf_frame_payload : WellFormed params (.frame 1 3 [1, 2, 3] 0xA6) = false := by decide
theorem test_wf_frame_crc : WellFormed params (.frame 1 3 [1, 2] 0xA7) = false := by decide +kernel
theorem test_wf_frame : WellFormed params (.frame 1 3 [1, 2] 0xA6) = true := by decide +kernel
theorem test_wf_accepted_low : WellFormed params (.outcomeFrameAccepted 5) = false := by decide
theorem test_wf_accepted_high : WellFormed params (.outcomeFrameAccepted 259) = false := by decide
theorem test_wf_discard_zero : WellFormed params (.outcomeDiscardBytes 0) = false := by decide
theorem test_wf_discard_high : WellFormed params (.outcomeDiscardBytes 4097) = false := by decide
theorem test_wf_verify_low : WellFormed params (.crc8Verify 2) = false := by decide
theorem test_wf_bounds_high : WellFormed params (.parseBounds 256) = false := by decide
theorem test_wf_fields_low : WellFormed params (.parseFields 0) = false := by decide
theorem test_wf_scan : WellFormed params (.syncScan 65536) = false := by decide
theorem test_wf_stats : WellFormed params (.stats 0x100000000) = false := by decide
theorem test_wf_consume_operand :
    WellFormed { params with bufCap := 70000, outcomeW := 18 } (.consume 65536) = false := by
  decide
theorem test_wf_resolve_zero : WellFormed params (.syncResolve 0 .head) = false := by decide
theorem test_wf_resolve_high : WellFormed params (.syncResolve 65536 .crc) = false := by decide
theorem test_wf_append_empty : WellFormed params (.rxAppend []) = false := by decide
theorem test_wf_append_long : WellFormed params (.rxAppend (List.replicate 4097 0)) = false := by
  decide +kernel
theorem test_wf_consume_zero : WellFormed params (.consume 0) = false := by decide
theorem test_wf_consume_high : WellFormed params (.consume 4097) = false := by decide
theorem test_wf_deliver : WellFormed params (.deliver 256) = false := by decide
theorem test_wf_read_empty : WellFormed params (.rxEvent (.data [])) = false := by decide

/-! ## Decoding: words written out from R50, R60, R62, R63, R64 (operand bytes: log 1) -/

theorem test_decode_frame :
    decode params (.wire [0xF7, 0x02, 0x04, 0x0A, 0x0B, 0x0C, 0x6C]) =
      .ok (.frame 0x02 0x04 [0x0A, 0x0B, 0x0C] 0x6C) := by
  decide
theorem test_decode_not_head : decode params (.wire [0xF6, 0x01, 0x03, 0x01, 0x02, 0xA6]) = .error .notHead := by decide
theorem test_decode_frame_cut : decode params (.wire [0xF7, 0x01, 0x03, 0x01, 0x02]) = .error .frameCut := by decide
theorem test_decode_frame_surplus :
    decode params (.wire [0xF7, 0x01, 0x03, 0x01, 0x02, 0xA6, 0x00]) = .error .frameSurplus := by decide
theorem test_decode_needMoreData : decode params (.outcome 0x0000) = .ok .outcomeNeedMoreData := by decide
theorem test_decode_accepted : decode params (.outcome 0x0102) = .ok (.outcomeFrameAccepted 258) := by decide
theorem test_decode_discard : decode params (.outcome 0xF001) = .ok (.outcomeDiscardBytes 4095) := by decide
theorem test_decode_unused_outcome : decode params (.outcome 0x0200) = .error .unusedOutcome := by decide
/-- A word wider than the port, and the same discard on a port of 14 bits (D11). -/
theorem test_decode_outcome_width : decode params (.outcome 0x10000) = .error .unusedOutcome ∧
    decode { params with outcomeW := 14 } (.outcome 0x3001) = .ok (.outcomeDiscardBytes 4095) := by decide
theorem test_decode_stats : decode params (.status 7 6 1) = .ok (.stats 7) ∧
    decode params (.status 0x100000000 0 0) = .error .unusedStatus := by decide
theorem test_decode_message : decode params .message = .ok .message := by decide
theorem test_decode_crc8Bit : decode params (.op 0b00000 [0x80]) = .ok (.crc8Bit 0x80) := by decide
theorem test_decode_crc8Byte : decode params (.op 0b00001 [0x09, 0x01]) = .ok (.crc8Byte 0x09 0x01) := by decide
theorem test_decode_crc8Block : decode params (.op 0b00010 [0x03, 0x01, 0x02]) = .ok (.crc8Block [3, 1, 2]) := by decide
theorem test_decode_crc8Verify : decode params (.op 0b00011 [0xFF]) = .ok (.crc8Verify 255) := by decide
theorem test_decode_parseProbe : decode params (.op 0b00100 []) = .ok .parseProbe := by decide
theorem test_decode_parseHead : decode params (.op 0b00101 []) = .ok .parseHead := by decide
theorem test_decode_parseLen : decode params (.op 0b00110 []) = .ok .parseLen := by decide
theorem test_decode_parseBounds : decode params (.op 0b00111 [0x03]) = .ok (.parseBounds 3) := by decide
theorem test_decode_parseFields : decode params (.op 0b01000 [0x05]) = .ok (.parseFields 5) := by decide
theorem test_decode_syncGate : decode params (.op 0b01001 []) = .ok .syncGate := by decide
theorem test_decode_syncScan : decode params (.op 0b01010 [0x02, 0x01]) = .ok (.syncScan 258) := by decide
theorem test_decode_syncResolve :
    decode params (.op 0b01011 [0x03, 0x00, 0x02]) = .ok (.syncResolve 3 .len) := by decide
theorem test_decode_check : decode params (.op 0b01100 []) = .ok .check := by decide
theorem test_decode_rxAppend : decode params (.op 0b01101 [0xF7, 0x01]) = .ok (.rxAppend [0xF7, 0x01]) := by decide
theorem test_decode_consume : decode params (.op 0b01110 [0x00, 0x10]) = .ok (.consume 4096) := by decide
theorem test_decode_deliver : decode params (.op 0b01111 [0x04]) = .ok (.deliver 4) := by decide
theorem test_decode_apply : decode params (.op 0b10000 []) = .ok .apply := by decide
theorem test_decode_drain : decode params (.op 0b10001 []) = .ok .drain := by decide
theorem test_decode_rxEvent : decode params (.op 0b10010 [0x03, 0xA6]) = .ok (.rxEvent (.data [0xA6])) := by decide
theorem test_decode_pull : decode params (.op 0b10011 []) = .ok .pull := by decide
theorem test_decode_getStats : decode params (.op 0b10100 []) = .ok .getStats := by decide
theorem test_decode_exitReq : decode params (.op 0b10101 []) = .ok .exitReq := by decide
theorem test_decode_join : decode params (.op 0b10110 []) = .ok .join := by decide
theorem test_decode_free : decode params (.op 0b10111 []) = .ok .free := by decide
theorem test_decode_reset :
    decode params (.op 0b11000 [0x78, 0x56, 0x34, 0x12, 0x01, 0x00]) =
      .ok (.reset 0x12345678 .fileBacked .succeeds) := by
  decide
theorem test_decode_unused_number : decode params (.op 0b11001 []) = .error .unusedNumber := by decide
theorem test_decode_operand_missing : decode params (.op 0b00011 []) = .error .operandBytes := by decide
theorem test_decode_operand_value : decode params (.op 0b01011 [0x01, 0x00, 0x04]) = .error .operandValue := by decide

/-! ## Unit CRC: section 2 of spec/95 -/

theorem test_v2_3_v2_4 : crcBit 0x07 0x7F = 0xFE ∧ crcBit 0x07 0x80 = 0x07 := by decide +kernel
theorem test_v2_8_v2_11_v2_12 : crcByte params 0x00 0x80 = 0x89 ∧ crcByte params 0x09 0x01 = 0x38 ∧
    crcByte params 0x38 0x02 = 0xA6 := by
  decide +kernel
theorem test_v2_25_v2_31 : crc8 params [0x03, 0x01, 0x02] = 0xA6 ∧
    crc8 params [0x05, 0xAA, 0xF7, 0x55, 0x00] = 0xB9 := by
  decide +kernel

/-- V2.36, from the published check value of this parameter set. -/
theorem test_v2_36 : crc8 params [0x31, 0x32, 0x33, 0x34, 0x35, 0x36, 0x37, 0x38, 0x39] = 0xF4 := by decide +kernel

/-- POLY, CRC_INIT, CRC_XOROUT and CRC_REFLECT as arguments: the published check values of CRC-8/ROHC (0x07, init 0xFF,
reflected: 0xD0), CRC-8/I-432-1 (0x07, final XOR 0x55: 0xA1) and CRC-8/MAXIM-DOW (0x31, reflected: 0xA1), from general
knowledge (log 18). -/
theorem test_crc_parameters :
    crc8 { params with crcInit := 0xFF, crcReflect := .reversed }
      [0x31, 0x32, 0x33, 0x34, 0x35, 0x36, 0x37, 0x38, 0x39] = 0xD0 ∧
    crc8 { params with crcXorOut := 0x55 } [0x31, 0x32, 0x33, 0x34, 0x35, 0x36, 0x37, 0x38, 0x39] = 0xA1 ∧
    crc8 { params with poly := 0x31, crcReflect := .reversed }
      [0x31, 0x32, 0x33, 0x34, 0x35, 0x36, 0x37, 0x38, 0x39] = 0xA1 := by decide +kernel

theorem test_verify : after (exec (.crc8Verify 3) (holding frameA)) State.result = some (.boolean true) ∧
    after (exec (.crc8Verify 3) (holding (frameA.set 1 0x99))) State.result = some (.boolean true) ∧
    after (exec (.crc8Verify 3) (holding (frameA.set 4 0x03))) State.result = some (.boolean false) := by decide +kernel

/-! ## Units PARSE and SYNC -/

theorem test_probe : after (exec .parseProbe (holding (frameA.take 5))) State.result = some (.outcome .needMoreData) ∧
    after (exec .parseProbe (holding frameA)) State.result = some .pass := by decide +kernel
theorem test_head : after (exec .parseHead (holding (frameA.set 0 0xF6))) State.result = some (.syncError .head 1) ∧
    after (exec .parseHead (holding frameA)) State.result = some .pass := by decide +kernel
theorem test_len : after (exec .parseLen (holding (frameA.set 2 0x02))) State.result = some (.syncError .len 3) ∧
    after (exec .parseLen (holding (frameA.set 2 0xFF))) State.result = some (.length 255) := by decide +kernel

/-- V3.12: `L + 3` does not wrap. -/
theorem test_v3_12 : after (exec (.parseBounds 253) (holding frameA)) State.result = some (.outcome .needMoreData) := by
  decide +kernel

/-- V3.2. -/
theorem test_v3_2 : after (exec (.parseFields 5) (holding frameC)) State.result =
    some (.fields { head := 0xF7, addr := 0x10, len := 0x05, payload := [0xAA, 0xF7, 0x55, 0x00], crc := 0xB9 }) := by
  decide +kernel

theorem test_gate : after (exec .syncGate { holding frameA with resync := true }) State.result =
      some (.syncError .resync 1) ∧
    after (exec .syncGate (holding frameA)) State.result = some .pass := by decide +kernel
theorem test_scan : after (exec (.syncScan 1) (holding frameC)) State.result = some (.found 4) ∧
    after (exec (.syncScan 5) (holding frameC)) State.result = some .notFound := by decide +kernel
theorem test_resolve : after (exec (.syncResolve 1 .crc) (holding frameC)) shown =
      some (.outcome (.discardBytes 4), false, some .crc) ∧
    after (exec (.syncResolve 8 .crc) (holding frameC)) shown =
      some (.outcome (.discardBytes 8), true, some .crc) := by decide +kernel

/-! ## CHECK: section 4 of spec/95 -/

/-- V4.3, V4.4, V4.6. -/
theorem test_v4_3_v4_4_v4_6 :
    after (exec .check { holding (List.replicate 5 0xAA) with resync := true }) shown =
      some (.outcome .needMoreData, true, none) ∧
    after (exec .check (holding frameA)) shown = some (.outcome (.frameAccepted 6), false, none) ∧
    after (exec .check (holding [0xF7, 0x01, 0x04, 0x01, 0x02, 0x03])) shown =
      some (.outcome .needMoreData, false, none) := by decide +kernel

/-- V4.7, V4.10, V4.13a. -/
theorem test_v4_7_v4_10_v4_13a :
    after (exec .check (holding (0xAA :: frameA))) shown = some (.outcome (.discardBytes 1), false, some .head) ∧
    after (exec .check { holding (frameA ++ frameA) with resync := true }) shown =
      some (.outcome (.discardBytes 6), false, some .resync) ∧
    after (exec .check (holding [0xF7, 0xF7, 0x02, 0x00, 0x00, 0x00])) shown =
      some (.outcome (.discardBytes 6), true, some .len) := by decide +kernel

/-- V4.15a, V4.15b: both values of SCAN_START_CRC. -/
theorem test_v4_15 :
    after (exec .check (holding (frameC.set 7 0x46))) shown = some (.outcome (.discardBytes 8), true, some .crc) ∧
    after (exec .check (under { params with scanStartCrc := .one } (holding (frameC.set 7 0x46)))) shown =
      some (.outcome (.discardBytes 4), false, some .crc) := by decide +kernel

/-- HEAD, MIN_PROBE, CTR_W and the scan starts as arguments: a HEAD mismatch scanned from 0, a set flag from 2, and a
16-bit counter that wraps (R5, R22, R101). -/
theorem test_other_parameters :
    after (exec .check (under otherParams (holding [0xF7, 0x7E, 0x03, 0x00, 0x00]))) shown =
      some (.outcome (.discardBytes 1), false, some .head) ∧
    after (exec .check { under otherParams (holding [0x7E, 0x7E, 0x7E, 0x00, 0x00]) with resync := true }) shown =
      some (.outcome (.discardBytes 2), false, some .resync) ∧
    after (exec .apply { under otherParams (holding [0x00, 0x7E, 0x00, 0x00, 0x00]) with bytesInvalid := 0xFFFF })
      State.bytesInvalid = some 0 := by decide +kernel

/-! ## The receive engine and the consumer: section 5 of spec/95 -/

/-- V5.1. -/
theorem test_v5_1 : after (exec (.rxAppend [0x03, 0x01]) (holding [0xF7, 0x01])) bytesOf =
    some (some [0xF7, 0x01, 0x03, 0x01]) := by decide +kernel

/-- V5.2, V5.3. -/
theorem test_v5_2_v5_3 : after (exec (.consume 1) (holding (0xAA :: frameA))) bytesOf = some (some frameA) ∧
    after (exec (.consume 6) (holding frameA)) State.fill = some 0 := by decide +kernel

/-- V5.5: an unread message is overwritten. -/
theorem test_v5_5 : after (exec (.deliver 4)
      { holding frameB with msgValid := true, msg := { addr := 1, len := 3, payload := [1, 2] } })
      (fun t => (t.msgValid, t.msg, t.wakes)) =
    some (true, { addr := 0x02, len := 0x04, payload := [0x0A, 0x0B, 0x0C] }, 1) := by decide +kernel

/-- V5.6: the counter wraps. -/
theorem test_v5_6 : after (exec .apply { holding [0xAA, 0xBB, 0xCC, 0xDD, 0xEE, 0x11] with bytesInvalid := 0xFFFFFFFE })
    (fun t => (t.bytesInvalid, t.fill, t.resync)) = some (0x00000004, 0, true) := by decide +kernel

/-- V5.15, and an acceptance that leaves the frame behind it. -/
theorem test_v5_15 : after (exec .apply (holding [])) State.result = some (.outcome .needMoreData) ∧
    after (exec .apply (holding (frameA ++ frameB))) (fun t => (t.bytesRead, bytesOf t)) = some (6, some frameB) := by
  decide +kernel

/-- Program P3, its first read, under `ATOMICITY = drain`: two frames delivered, the first overwritten. -/
theorem test_p3_drain : after (exec .drain (under { params with atomicity := .drain }
      (holding (frameA ++ frameB ++ frameC.take 4)))) (fun t => (t.bytesRead, t.msg.addr, bytesOf t)) =
    some (13, 0x02, some [0xF7, 0x10, 0x05, 0xAA]) := by decide +kernel

/-- The same under `ATOMICITY = iteration`: one APPLY, and RXE stays inside the DRAIN. -/
theorem test_p3_iteration : after (exec .drain (holding (frameA ++ frameB ++ frameC.take 4)))
      (fun t => (t.bytesRead, t.msg.addr, t.draining)) = some (6, 0x01, true) := by decide +kernel

/-- Program P1, its last read; V5.13. -/
theorem test_p1_v5_13 : after (exec (.rxEvent (.data [0xA6])) (holding (frameA.take 5)))
      (fun t => (t.fill, t.bytesRead, t.msgValid)) = some (0, 6, true) ∧
    after (exec (.rxEvent .eof) (holding [])) State.rxHalted = some true := by decide +kernel

/-- V5.8, V5.9. -/
theorem test_v5_8_v5_9 : after (exec .pull
      { holding [] with msgValid := true, msg := { addr := 1, len := 3, payload := [1, 2] } })
      (fun t => (t.result, t.msgValid)) = some (.message { addr := 1, len := 3, payload := [1, 2] }, false) ∧
    after (exec .pull (holding [])) (fun t => (t.result, t.held)) = some (.held, 1) := by decide +kernel

/-- V5.10, V5.11. -/
theorem test_v5_10_v5_11 : after (exec .pull { holding [] with runState := .exitRequested }) State.result =
      some .shutdown ∧
    after (exec .pull { holding [] with msgValid := true, runState := .joined }) State.result =
      some (.message Message.blank) := by decide +kernel

/-- V5.12 with its display string (R62). -/
theorem test_v5_12 : after (exec .getStats { holding [] with bytesRead := 6, bytesInvalid := 1 }) State.result =
      some (.stats 0 6 1) ∧ statsText 0 6 1 = "bytes_write=0 bytes_read=6 bytes_invalid=1" := by decide +kernel

/-! ## Formats, lifecycle, reset, step -/

theorem test_frame_row :
    after (exec (.frame 0x01 0x03 [0x01, 0x02] 0xA6) (holding [])) (fun t => (t.bytesRead, t.msg)) =
    some (6, { addr := 0x01, len := 0x03, payload := [0x01, 0x02] }) := by decide +kernel
theorem test_outcome_rows : after (exec .outcomeNeedMoreData (holding (frameA.take 5))) State.fill = some 5 ∧
    after (exec (.outcomeFrameAccepted 6) (holding frameA)) (fun t => (t.bytesRead, t.fill)) = some (6, 0) ∧
    after (exec (.outcomeDiscardBytes 1) (holding (0xAA :: frameA))) (fun t => (t.bytesInvalid, t.fill)) =
      some (1, 6) := by decide +kernel

/-- A discard that CHECK does not answer counts nothing (R119, R173). -/
theorem test_outcome_not_answered : faultOf (exec (.outcomeDiscardBytes 2) (holding frameA)) =
    some .outcomeNotAnswered := by decide +kernel
theorem test_stats_row : after (exec (.stats 9) (holding [])) (fun t => (t.bytesWrite, t.result)) =
    some (9, .stats 9 0 0) := by decide +kernel
theorem test_message_row : after (exec .message { holding [] with held := 1, runState := .joined })
    (fun t => (t.result, t.held)) = some (.shutdown, 0) := by decide +kernel

/-- R169: the moves of the lifecycle. -/
theorem test_lifecycle :
    after (exec .exitReq (holding [])) (fun t => (t.runState, t.wakes)) = some (.exitRequested, 1) ∧
    after (exec .join { holding [] with runState := .exitRequested }) State.runState = some .joined ∧
    after (exec .free { holding [] with runState := .joined, msgValid := true }) (fun t => (t.runState, t.msgValid)) =
      some (.freed, false) := by decide +kernel
theorem test_reset_row : after (exec (.reset 5 .fileBacked .succeeds) { holding frameA with runState := .freed })
      (fun t => (t.fill, t.runState, t.descriptor)) = some (0, .running, 5) ∧
    after (exec (.reset 5 .fileBacked .fails) (holding frameA)) State.constructed = some false := by decide +kernel

/-- A word placed where step fetches runs in the next step, from the state after reset. -/
theorem test_step_word : after (step (State.reset.withFetchWord 8 0x0C)) State.result =
    some (.outcome .needMoreData) := by rfl

/-- With nothing invoked the state after reset stays. -/
theorem test_step_idle : after (step State.reset) State.fill = some 0 := by rfl

/-! ## Witnesses: for every statement with hypotheses, states and operands that meet them, for each clause -/

theorem longFrame_at_front : FrameAtFront params longFrame 255 := by
  have hl : longBody.length = 257 := by simp only [longBody, List.length_cons, List.length_replicate]
  refine ⟨⟨by rw [longFrame, List.length_append, hl]; decide, rfl, by decide, by decide, rfl⟩,
    by simp [longFrame, hl], ?_⟩
  have hs : spanOf longFrame 255 = spanOf longBody 255 := by
    unfold spanOf longFrame
    rw [List.drop_append_of_le_length (by omega), List.take_append_of_le_length (by simp [hl])]
  rw [hs, longFrame, List.getElem?_append_right (by omega), hl]
  rfl

/-- A live engine: the one hypothesis of many statements (with any operand bytes, the boundaries `0x7F` and `0x80` of
R71 among them: test_v2_3_v2_4). -/
theorem witness_CrcBitShiftsAndXors : engineLive (holding []) = true := rfl
theorem witness_CrcByteXorsThenEightBits : (holding []).cfg.poly = 0x07 ∧ engineLive (holding []) = true ∧
    (holding []).cfg.crcReflect = .none := ⟨rfl, rfl, rfl⟩
theorem witness_CrcBlockAbsorbsInOrder : engineLive (holding []) = true ∧ params.crcXorOut = 0 ∧
    params.crcReflect = .none := ⟨rfl, rfl, rfl⟩
theorem witness_CrcIsLinear : params.crcInit = 0 ∧ params.crcXorOut = 0 ∧
    [(0x01 : Byte), 0x02].length = [(0xF7 : Byte), 0x80].length := by decide
theorem witness_CrcResidueIsZeroExactly : params.crcXorOut = 0 ∧ params.poly.getLsbD 0 = true := by decide
theorem witness_CrcSeesEveryByteChange : params.poly.getLsbD 0 = true ∧ (0x00 : Byte) ≠ 0x01 := by decide

/-- At both ends of the range of `L`, the window just whole. -/
theorem witness_CrcVerifyComparesTheSpan :
    (receiverLive (holding frameA) = true ∧ params.wf = true ∧ Contents (holding frameA) frameA ∧ params.lMin ≤ 3 ∧
      3 ≤ params.lMax ∧
      3 + 3 ≤ frameA.length) ∧
    (receiverLive (holding longFrame) = true ∧ params.wf = true ∧ Contents (holding longFrame) longFrame ∧
      params.lMin ≤ 255 ∧ 255 ≤ params.lMax ∧
      255 + 3 ≤ longFrame.length) :=
  ⟨⟨rfl, rfl, contents_holding _, by decide, by decide, by decide⟩,
    ⟨rfl, rfl, contents_holding _, by decide, by decide, longFrame_at_front.2.1⟩⟩

/-- At 5 and at 6 bytes. -/
theorem witness_ProbeNeedsSixBytes :
    (receiverLive (holding (frameA.take 5)) = true ∧ (holding (frameA.take 5)).fill = 5) ∧
    (receiverLive (holding frameA) = true ∧ (holding frameA).fill = 6) := ⟨⟨rfl, rfl⟩, rfl, rfl⟩

/-- With the sentinel and with its neighbour. -/
theorem witness_HeadTestWantsTheSentinel :
    (receiverLive (holding frameA) = true ∧ params.wf = true ∧ Contents (holding frameA) frameA ∧
      params.minProbe ≤ frameA.length) ∧
    (receiverLive (holding (frameA.set 0 0xF6)) = true ∧ params.wf = true ∧
      Contents (holding (frameA.set 0 0xF6)) (frameA.set 0 0xF6) ∧
      params.minProbe ≤ (frameA.set 0 0xF6).length) :=
  ⟨⟨rfl, rfl, contents_holding _, by decide⟩, rfl, rfl, contents_holding _, by decide⟩

/-- At 2 and at 3, and beyond a smaller L_MAX. -/
theorem witness_LengthTestRejectsBelowThree :
    (receiverLive (holding (frameA.set 2 2)) = true ∧ params.wf = true ∧
      Contents (holding (frameA.set 2 2)) (frameA.set 2 2) ∧
      params.minProbe ≤ (frameA.set 2 2).length ∧ (frameA.set 2 2)[2]? = some 2) ∧
    (receiverLive (holding frameA) = true ∧ params.wf = true ∧ Contents (holding frameA) frameA ∧
      params.minProbe ≤ frameA.length ∧
      frameA[2]? = some 3) ∧
    (otherParams.wf = true ∧ otherParams.minProbe ≤ frameA.length ∧ otherParams.lMax < (65 : Byte).toNat ∧
      (frameA.set 2 65)[2]? = some 65) :=
  ⟨⟨rfl, rfl, contents_holding _, by decide, rfl⟩, ⟨rfl, rfl, contents_holding _, by decide, rfl⟩, by decide⟩

/-- With the window whole and one byte short. -/
theorem witness_BoundsTestWaitsForTheWindow :
    params.wf = true ∧ (receiverLive (holding frameA) = true ∧ params.lMin ≤ 3 ∧ 3 ≤ params.lMax ∧
      (holding frameA).fill = 3 + 3) ∧
    (receiverLive (holding (frameA.take 5)) = true ∧ params.lMin ≤ 3 ∧ 3 ≤ params.lMax ∧
      (holding (frameA.take 5)).fill + 1 = 3 + 3) := by
  decide

theorem witness_FieldsStandAtTheirOffsets :
    (receiverLive (holding frameA) = true ∧ params.wf = true ∧ Contents (holding frameA) frameA ∧ params.lMin ≤ 3 ∧
      3 ≤ params.lMax ∧
      3 + 3 ≤ frameA.length) ∧
    (receiverLive (holding longFrame) = true ∧ params.wf = true ∧ Contents (holding longFrame) longFrame ∧
      params.lMin ≤ 255 ∧ 255 ≤ params.lMax ∧
      255 + 3 ≤ longFrame.length) := witness_CrcVerifyComparesTheSpan

/-- With the flag set and clear. -/
theorem witness_GateFollowsTheFlag :
    (receiverLive { holding frameA with resync := true } = true ∧
      params.minProbe ≤ { holding frameA with resync := true }.fill) ∧
    (receiverLive (holding frameA) = true ∧ params.minProbe ≤ (holding frameA).fill) := by decide

theorem witness_ScanFindsTheLeastHead : receiverLive (holding frameC) = true ∧ params.wf = true ∧
    Contents (holding frameC) frameC :=
  ⟨rfl, rfl, contents_holding _⟩

/-- From 1, and from a SCAN_START_HEAD of 0. -/
theorem witness_ErrorPathWritesFlagAndDiscards :
    (receiverLive (holding frameC) = true ∧ Contents (holding frameC) frameC ∧ params.minProbe ≤ frameC.length ∧
      1 ≤ 1) ∧
    (receiverLive (under otherParams (holding frameC)) = true ∧ Contents (under otherParams (holding frameC)) frameC ∧
      otherParams.minProbe ≤ frameC.length ∧ 0 = otherParams.scanStartHead ∧
      frameC[0]? ≠ some otherParams.head) :=
  ⟨⟨rfl, contents_holding _, by decide, by decide⟩, rfl, contents_holding frameC, by decide, rfl, by decide⟩

/-- For each of the three operations. -/
theorem witness_DiscardsAreNeverEmpty :
    Sound (holding (0xAA :: frameA)) ∧
    after (exec .check (holding (0xAA :: frameA))) State.result = some (.outcome (.discardBytes 1)) ∧
    after (exec .apply (holding (0xAA :: frameA))) State.result = some (.outcome (.discardBytes 1)) ∧
    after (exec (.syncResolve 2 .head) (holding (0xAA :: frameA))) State.result = some (.outcome (.discardBytes 7)) :=
  ⟨sound_holding _ (by decide), by decide +kernel⟩

/-! ### CHECK -/

/-- In both ways of waiting: five bytes, and a window one byte short. -/
theorem waitings : Waits params false (frameA.take 5) ∧ Waits params false (frameB.take 6) := by
  refine ⟨.inl (by decide), .inr ⟨rfl, 4, ?_, by decide⟩⟩
  unfold LegalHeader
  decide +kernel

theorem witness_CheckAcceptsExactlyFrames :
    (receiverLive (holding frameA) = true ∧ params.wf = true ∧ Contents (holding frameA) frameA ∧
      (holding frameA).resync = false ∧
      FrameAtFront params frameA 3 ∧
      after (exec .check (holding frameA)) State.result = some (.outcome (.frameAccepted 6))) ∧
    (receiverLive (holding longFrame) = true ∧ params.wf = true ∧ Contents (holding longFrame) longFrame ∧
      (holding longFrame).resync = false ∧ FrameAtFront params longFrame 255) :=
  ⟨⟨rfl, rfl, contents_holding _, rfl, frameA_at_front, by decide +kernel⟩, rfl, rfl, contents_holding _, rfl,
    longFrame_at_front⟩

/-- For each of the four causes. -/
theorem failures :
    FailsWith params true frameA .resync 1 ∧ FailsWith params false (0xAA :: frameA) .head 1 ∧
    FailsWith params false (frameA.set 2 2) .len 3 ∧ FailsWith params false (frameA.set 5 0xA7) .crc 6 := by
  refine ⟨⟨by decide, rfl, rfl⟩, ⟨by decide, rfl, by decide +kernel, rfl⟩,
    ⟨by decide, rfl, rfl, ⟨2, rfl, by decide⟩, rfl⟩, rfl, 3, ?_, by decide, by decide +kernel, rfl⟩
  unfold LegalHeader
  decide +kernel

/-- Both ways of waiting, the four causes, an acceptance. -/
theorem witness_CheckRunsItsSixSteps :
    (receiverLive (holding (frameA.take 5)) = true ∧ params.wf = true ∧
      Contents (holding (frameA.take 5)) (frameA.take 5) ∧
      Waits params false (frameA.take 5)) ∧
    (receiverLive (holding (frameB.take 6)) = true ∧ params.wf = true ∧
      Contents (holding (frameB.take 6)) (frameB.take 6) ∧
      Waits params false (frameB.take 6)) ∧
    (receiverLive { holding frameA with resync := true } = true ∧ params.wf = true ∧
      Contents { holding frameA with resync := true } frameA ∧ FailsWith params true frameA .resync 1) ∧
    (receiverLive (holding (0xAA :: frameA)) = true ∧ params.wf = true ∧
      Contents (holding (0xAA :: frameA)) (0xAA :: frameA) ∧
      FailsWith params false (0xAA :: frameA) .head 1) ∧
    (receiverLive (holding (frameA.set 2 2)) = true ∧ params.wf = true ∧
      Contents (holding (frameA.set 2 2)) (frameA.set 2 2) ∧
      FailsWith params false (frameA.set 2 2) .len 3) ∧
    (receiverLive (holding (frameA.set 5 0xA7)) = true ∧ params.wf = true ∧
      Contents (holding (frameA.set 5 0xA7)) (frameA.set 5 0xA7) ∧
      FailsWith params false (frameA.set 5 0xA7) .crc 6) ∧
    (receiverLive (holding frameA) = true ∧ params.wf = true ∧ Contents (holding frameA) frameA ∧
      FrameAtFront params frameA 3) :=
  ⟨⟨rfl, rfl, contents_holding _, waitings.1⟩, ⟨rfl, rfl, contents_holding _, waitings.2⟩,
    ⟨rfl, rfl, contents_holding frameA, failures.1⟩, ⟨rfl, rfl, contents_holding _, failures.2.1⟩,
    ⟨rfl, rfl, contents_holding _, failures.2.2.1⟩, ⟨rfl, rfl, contents_holding _, failures.2.2.2⟩,
    ⟨rfl, rfl, contents_holding _, frameA_at_front⟩⟩

/-- Two states that differ elsewhere. -/
theorem witness_CheckIsTotalAndDependsOnTheBytesAlone :
    receiverLive (holding frameA) = true ∧ receiverLive { holding frameA with bytesRead := 5 } = true ∧
      params.wf = true ∧
    Contents (holding frameA) frameA ∧ Contents { holding frameA with bytesRead := 5 } frameA ∧
    (holding frameA).resync = { holding frameA with bytesRead := 5 }.resync ∧
    (holding frameA).cfg = { holding frameA with bytesRead := 5 }.cfg :=
  ⟨rfl, rfl, rfl, contents_holding _, contents_holding frameA, rfl, rfl⟩

/-- At 6 bytes without a later HEAD (V4.9) and with one (V4.11). -/
theorem witness_SetFlagIsSticky :
    (receiverLive { holding frameA with resync := true } = true ∧ params.wf = true ∧
      Contents { holding frameA with resync := true } frameA ∧ { holding frameA with resync := true }.resync = true ∧
      params.minProbe ≤ frameA.length) ∧
    (receiverLive { holding (0xF7 :: frameA) with resync := true } = true ∧ params.wf = true ∧
      Contents { holding (0xF7 :: frameA) with resync := true } (0xF7 :: frameA) ∧
        params.minProbe ≤ (0xF7 :: frameA).length) :=
  ⟨⟨rfl, rfl, contents_holding frameA, rfl, by decide⟩, rfl, rfl, contents_holding (0xF7 :: frameA), by decide⟩

/-- One byte of frame C changed, for each clause: HEAD, ADDR, LEN below 3 and above and below `L`, the first PAYLOAD
byte, the CRC8 byte. -/
theorem witness_OneByteCorruption :
    params.wf = true ∧ params.poly.getLsbD 0 = true ∧
    receiverLive (holding frameC) = true ∧ (holding frameC).resync = false ∧ FrameAtFront params frameC 5 ∧
    frameC.length = 5 + 3 ∧ (∀ i : Nat, ∀ v : Byte, Contents (holding (frameC.set i v)) (frameC.set i v)) ∧
    (0 < 5 + 3 ∧ frameC[0]? ≠ some 0xF6) ∧ (1 < 5 + 3 ∧ frameC[1]? ≠ some 0x11) ∧
    (2 < 5 + 3 ∧ frameC[2]? ≠ some 2) ∧ (frameC[2]? ≠ some 6) ∧ (frameC[2]? ≠ some 3) ∧ (frameC[2]? ≠ some 4) ∧
    (3 < 5 + 3 ∧ frameC[3]? ≠ some 0) ∧ (7 < 5 + 3 ∧ frameC[7]? ≠ some 0) := by
  refine ⟨rfl, rfl, rfl, rfl, frameC_at_front, rfl, fun i v => contents_holding _, ?_⟩
  decide +kernel

/-- An acceptance, and a discard up to a found HEAD, with more bytes behind. -/
theorem witness_AnswersAreStableUnderMoreData :
    params.wf = true ∧ (Contents (holding frameA) frameA ∧ Contents (holding (frameA ++ frameB)) (frameA ++ frameB) ∧
      receiverLive (holding frameA) = true ∧ receiverLive (holding (frameA ++ frameB)) = true ∧
      after (exec .check (holding frameA)) State.result = some (.outcome (.frameAccepted 6))) ∧
    (Contents (holding (0xAA :: frameA)) (0xAA :: frameA) ∧
      Contents (holding ((0xAA :: frameA) ++ frameB)) ((0xAA :: frameA) ++ frameB) ∧
      receiverLive (holding (0xAA :: frameA)) = true ∧ receiverLive (holding ((0xAA :: frameA) ++ frameB)) = true ∧
      after (exec .check (holding (0xAA :: frameA))) (fun t => (t.resync, t.result)) =
        some (false, .outcome (.discardBytes 1))) :=
  ⟨rfl, ⟨contents_holding _, contents_holding _, rfl, rfl, by decide +kernel⟩, contents_holding _,
    contents_holding _, rfl,
    rfl, by decide +kernel⟩

/-! ### The receive engine -/

/-- The completing clause and the three ways to stop: no byte, and one byte too many for a full buffer. -/
theorem witness_AppendWritesBehind :
    (receiverLive (holding frameA) = true ∧ (holding frameA).draining = false ∧ Contents (holding frameA) frameA ∧
      1 ≤ frameB.length ∧ frameA.length + frameB.length ≤ params.bufCap) ∧
    (receiverLive (holding (List.replicate 4096 0)) = true ∧ params.wf = true ∧
      Contents (holding (List.replicate 4096 0)) (List.replicate 4096 0) ∧
      params.bufCap < (List.replicate 4096 (0 : Byte)).length + frameA.length) ∧ ([] : List Byte).length = 0 :=
  ⟨⟨rfl, rfl, contents_holding _, by decide, by decide⟩,
    ⟨rfl, rfl, contents_holding _, by simp only [List.length_replicate]; decide⟩, rfl⟩

/-- 1 byte, all of them, none, and one too many. -/
theorem witness_ConsumeMovesToTheFront :
    receiverLive (holding frameA) = true ∧ params.wf = true ∧ Contents (holding frameA) frameA ∧
      (1 ≤ 1 ∧ 1 ≤ frameA.length) ∧
    (1 ≤ 6 ∧ params.minProbe ≤ frameA.length) ∧ frameA.length < 7 :=
  ⟨rfl, rfl, contents_holding _, by decide, by decide, by decide⟩

theorem witness_DeliverFillsTheSlot :
    (receiverLive (holding frameA) = true ∧ (holding frameA).cfg.wf = true ∧ Contents (holding frameA) frameA ∧
      FrameAtFront params frameA 3 ∧ frameA[1]? = some 1) ∧
    (receiverLive (holding longFrame) = true ∧ params.wf = true ∧ Contents (holding longFrame) longFrame ∧
      FrameAtFront params longFrame 255 ∧ longFrame[1]? = some 0) :=
  ⟨⟨rfl, by decide, contents_holding _, frameA_at_front, rfl⟩, rfl, rfl, contents_holding _, longFrame_at_front, rfl⟩

theorem witness_ApplyWaitsAndChangesNothing :
    receiverLive (holding (frameA.take 5)) = true ∧ params.wf = true ∧
      Contents (holding (frameA.take 5)) (frameA.take 5) ∧
      Waits params (holding (frameA.take 5)).resync (frameA.take 5) :=
  ⟨rfl, rfl, contents_holding _, waitings.1⟩

theorem witness_ApplyAcceptsDeliversCountsConsumes :
    receiverLive (holding frameA) = true ∧ (holding frameA).cfg.wf = true ∧ Contents (holding frameA) frameA ∧
      (holding frameA).resync = false ∧ FrameAtFront params frameA 3 ∧ frameA[1]? = some 1 :=
  ⟨rfl, by decide, contents_holding _, rfl, frameA_at_front, rfl⟩

theorem witness_ApplyDiscardsCountsConsumes :
    receiverLive (holding (0xAA :: frameA)) = true ∧ (holding (0xAA :: frameA)).cfg.wf = true ∧
      Contents (holding (0xAA :: frameA)) (0xAA :: frameA) ∧ FailsWith params false (0xAA :: frameA) .head 1 :=
  ⟨rfl, by decide, contents_holding _, failures.2.1⟩

/-- Up to a HEAD, and all of the bytes. -/
theorem witness_DiscardLeavesHeadOrNothing :
    (Sound (holding (0xAA :: frameA)) ∧
      after (exec .apply (holding (0xAA :: frameA))) State.result = some (.outcome (.discardBytes 1))) ∧
    (Sound (holding (frameA.set 5 0xA7)) ∧
      after (exec .apply (holding (frameA.set 5 0xA7))) State.result = some (.outcome (.discardBytes 6))) :=
  ⟨⟨sound_holding _ (by decide), by decide +kernel⟩, sound_holding _ (by decide), by decide +kernel⟩

theorem sound_under (bytes : List Byte) (a : Atomicity) (h : bytes.length ≤ params.bufCap) :
    Sound (under { params with atomicity := a } (holding bytes)) :=
  ⟨rfl, (sound_holding bytes h).2.1, (by intro hv; cases hv), (sound_holding bytes h).2.2.2⟩

/-- A first APPLY that empties the buffer, one that waits, and one after which the loop goes on. -/
theorem witness_DrainRunsUntilCheckWaits :
    (Sound (under { params with atomicity := .drain } (holding frameA)) ∧
      receiverLive (under { params with atomicity := .drain } (holding frameA)) = true ∧
      (under { params with atomicity := .drain } (holding frameA)).cfg.atomicity = .drain ∧
      Contents (under { params with atomicity := .drain } (holding frameA)) frameA) ∧
    after (exec .apply (under { params with atomicity := .drain } (holding frameA))) State.fill = some 0 ∧
    after (exec .apply (under { params with atomicity := .drain } (holding []))) State.result =
      some (.outcome .needMoreData) ∧
    after (exec .apply (under { params with atomicity := .drain } (holding (frameA ++ frameB))))
      (fun u => (u.result, u.fill)) = some (.outcome (.frameAccepted 6), 7) :=
  ⟨⟨sound_under _ _ (by decide), rfl, rfl, contents_holding frameA⟩, by decide +kernel, by decide +kernel,
    by decide +kernel⟩

theorem witness_DrainIteratesApply :
    Sound (holding frameA) ∧ receiverLive (holding frameA) = true ∧ (holding frameA).cfg.atomicity = .iteration :=
  ⟨sound_holding _ (by decide), rfl, rfl⟩

/-- A read of one byte, and a frame. -/
theorem witness_ReadWithDataAppendsThenDrains :
    (holding []).draining = false ∧ after (exec (.rxAppend [0xAA]) (holding [])) State.fill = some 1 ∧
    after (exec (.rxAppend (0xF7 :: 0x01 :: 0x03 :: ([0x01, 0x02] ++ [0xA6]))) (holding [])) State.fill = some 6 := by
  decide +kernel

theorem witness_ReadWithoutDataIsIdleOrFatal :
    receiverLive (holding frameA) = true ∧ (holding frameA).draining = false := ⟨rfl, rfl⟩

/-- Inside a DRAIN and outside, a read that just fits and a frame. -/
theorem witness_ReceiveOperationsComplete :
    (Sound (holding frameA) ∧ receiverLive (holding frameA) = true ∧ 1 ≤ [(0xAA : Byte)].length ∧
      (holding frameA).fill + [(0xAA : Byte)].length ≤ params.bufCap) ∧
    (Sound { holding frameA with draining := true } ∧ receiverLive { holding frameA with draining := true } = true ∧
      { holding frameA with draining := true }.fill + ([(0x01 : Byte), 0x02].length + 4) ≤ params.bufCap) :=
  ⟨⟨sound_holding _ (by decide), rfl, by decide, by decide⟩, sound_holding frameA (by decide), rfl, by decide⟩

/-! ### Where operations have no step -/

/-- Each of the four kinds of state. -/
theorem witness_OperationsWithoutStepStop :
    isReset .check = false ∧ receiverOp .check = true ∧ { holding [] with constructed := false }.constructed = false ∧
    ({ holding [] with runState := .freed }.constructed = true ∧
      { holding [] with runState := .freed }.runState = .freed) ∧
    ({ holding [] with runState := .joined }.constructed = true ∧
      { holding [] with runState := .joined }.runState = .joined) ∧
    ({ holding [] with rxHalted := true }.constructed = true ∧
      { holding [] with rxHalted := true }.runState = .running ∧
      { holding [] with rxHalted := true }.rxHalted = true) := by decide

/-- No byte; two bytes; `L` at 2 and 256; a window one byte short; five bytes and a scan start of 0. -/
theorem witness_OperandsOutOfRangeStop :
    (receiverLive (holding []) = true ∧ (holding []).fill = 0) ∧
    (receiverLive (holding (frameA.take 2)) = true ∧ (holding (frameA.take 2)).fill < 3) ∧ 2 < params.lMin ∧
      params.lMax < 256 ∧
    (receiverLive (holding (frameA.take 5)) = true ∧ params.lMin ≤ 3 ∧ 3 ≤ params.lMax ∧
      (holding (frameA.take 5)).fill < 3 + params.frameOverhead) ∧
    (holding (frameA.take 5)).fill < params.minProbe ∧ params.scanStartHead ≠ 0 ∧
    (otherParams.scanStartHead = 0 ∧
      (under otherParams (holding [0x7E, 0, 0, 0, 0])).buf.read 0 = some otherParams.head) := by decide

/-! ### The consumer, the lifecycle, the formats -/

theorem witness_PullTakesTheMessage :
    engineLive { holding [] with msgValid := true, runState := .joined } = true ∧
    { holding [] with msgValid := true, runState := .joined }.msgValid = true := ⟨rfl, rfl⟩

/-- Each way to be shutting down, and each way not to be. -/
theorem witness_PullWithoutMessage :
    (engineLive { holding [] with runState := .exitRequested } = true ∧
      { holding [] with runState := .exitRequested }.msgValid = false) ∧
    (engineLive { holding [] with runState := .joined } = true ∧
      { holding [] with runState := .joined }.msgValid = false) ∧
    (engineLive { under { params with eofSetsExit := true } (holding []) with rxHalted := true } = true ∧
      { under { params with eofSetsExit := true } (holding []) with rxHalted := true }.cfg.eofSetsExit = true) ∧
    (engineLive (holding []) = true ∧ (holding []).runState = .running ∧ (holding []).rxHalted = false) ∧
    (engineLive { holding [] with rxHalted := true } = true ∧
      { holding [] with rxHalted := true }.cfg.eofSetsExit = false) := by decide

/-- No caller held; one held with a message, in shutdown, and with neither. -/
theorem witness_MessageAnswersOneHeldCaller :
    (engineLive (holding []) = true ∧ (holding []).held = 0) ∧
    (engineLive { holding [] with held := 1, msgValid := true } = true ∧
      { holding [] with held := 1, msgValid := true }.msgValid = true) ∧
    (engineLive { holding [] with held := 1, runState := .joined } = true ∧
      shuttingDown { holding [] with held := 1, runState := .joined } = true) ∧
    (engineLive { holding [] with held := 1 } = true ∧ shuttingDown { holding [] with held := 1 } = false) := by decide

theorem witness_StatisticsAreASnapshot : engineLive (holding []) = true := rfl
theorem witness_StatusPortTakesTransmitCounter : engineLive (holding []) = true := rfl

/-- Each lifecycle state before Freed, and ExitRequested inside a DRAIN. -/
theorem witness_LifecycleMovesInOrder :
    (engineLive (holding []) = true ∧ (holding []).runState = .running) ∧
    (engineLive { holding [] with runState := .exitRequested } = true ∧
      { holding [] with runState := .exitRequested }.draining = false) ∧
    (engineLive { holding [] with runState := .exitRequested, draining := true } = true ∧
      { holding [] with runState := .exitRequested, draining := true }.draining = true) ∧
    (engineLive { holding [] with runState := .joined } = true ∧
      { holding [] with runState := .joined }.runState = .joined) := by decide

/-- The least and the greatest payload. -/
theorem witness_IntactFrameIsDelivered :
    Sound (holding []) ∧ receiverLive (holding []) = true ∧ (holding []).fill = 0 ∧ (holding []).resync = false ∧
    (holding []).draining = false ∧ 
    (params.lMin ≤ [(0x01 : Byte), 0x02].length + 1 ∧ [(0x01 : Byte), 0x02].length ≤ params.payloadMax) ∧
    (params.lMin ≤ (List.replicate 254 (0 : Byte)).length + 1 ∧
      (List.replicate 254 (0 : Byte)).length ≤ params.payloadMax) :=
  ⟨sound_holding _ (by decide), rfl, rfl, rfl, rfl, by decide, by simp only [List.length_replicate]; decide⟩

/-- Waiting; an accepted frame; a discard of 1 byte and of all; an outcome that APPLY answers and one it does not. -/
theorem witness_OutcomesObligeTheCaller :
    (receiverLive (holding (frameA.take 5)) = true ∧ (holding (frameA.take 5)).cfg.wf = true ∧
      Contents (holding (frameA.take 5)) (frameA.take 5) ∧
      Waits params (holding (frameA.take 5)).resync (frameA.take 5)) ∧
    (receiverLive (holding frameA) = true ∧ (holding frameA).cfg.wf = true ∧ Contents (holding frameA) frameA ∧
      (holding frameA).resync = false ∧ FrameAtFront params frameA 3 ∧ frameA[1]? = some 1) ∧
    (Contents (holding (0xAA :: frameA)) (0xAA :: frameA) ∧ FailsWith params false (0xAA :: frameA) .head 1 ∧
      Resolves 0xF7 (0xAA :: frameA) 1 (.discardBytes 1) false) ∧
    (Contents (holding (List.replicate 6 0)) (List.replicate 6 0) ∧
      FailsWith params false (List.replicate 6 0) .head 1 ∧
      Resolves 0xF7 (List.replicate 6 0) 1 (.discardBytes 6) true) ∧
    after (exec .apply (holding frameA)) State.result = some (.outcome (.frameAccepted 6)) := by
  refine ⟨⟨rfl, by decide, contents_holding _, waitings.1⟩,
    ⟨rfl, by decide, contents_holding _, rfl, frameA_at_front, rfl⟩, ⟨contents_holding _, failures.2.1, ?_⟩,
    ⟨contents_holding _, by unfold FailsWith; decide, .inr ⟨fun j _ => ?_, rfl, rfl⟩⟩, by decide +kernel⟩
  · exact .inl ⟨1, ⟨Nat.le_refl 1, rfl, fun j h1 h2 => absurd h1 (Nat.not_le.mpr h2)⟩, rfl, rfl⟩
  · rw [List.getElem?_replicate]
    split
    · decide
    · simp

/-- For each of the three outcomes. -/
theorem witness_ApplyIsCheckThenTheOutcome :
    (Sound (holding frameA) ∧
      after (exec .check (holding frameA)) State.result = some (.outcome (.frameAccepted 6))) ∧
    (Sound (holding (0xAA :: frameA)) ∧
      after (exec .check (holding (0xAA :: frameA))) State.result = some (.outcome (.discardBytes 1))) ∧
    (Sound (holding []) ∧ after (exec .check (holding [])) State.result = some (.outcome .needMoreData)) :=
  ⟨⟨sound_holding _ (by decide), by decide +kernel⟩, ⟨sound_holding _ (by decide), by decide +kernel⟩,
    sound_holding _ (by decide), by decide +kernel⟩

theorem witness_DecodingUndoesEncoding :
    WellFormed params (.frame 1 3 [1, 2] 0xA6) = true ∧ WellFormed params (.consume 4096) = true ∧
    WellFormed params (.reset 0xFFFFFFFF .fileBacked .fails) = true ∧
      WellFormed params (.outcomeDiscardBytes 4096) = true ∧
    params.wf = true ∧ otherParams.wf = true ∧ WellFormed otherParams (.outcomeDiscardBytes 128) = true := by
  decide +kernel

/-- Each outcome at the ends of its range, on the narrowest port and on the default one. -/
theorem witness_OutcomePortReadsBackUniquely :
    WellFormed params (outcomeInstr .needMoreData) = true ∧ WellFormed params (outcomeInstr (.frameAccepted 6)) = true ∧
    WellFormed params (outcomeInstr (.frameAccepted 258)) = true ∧
      WellFormed params (outcomeInstr (.discardBytes 1)) = true ∧
    WellFormed params (outcomeInstr (.discardBytes 4096)) = true ∧ params.wf = true ∧
    { params with outcomeW := 14 }.wf = true ∧ otherParams.wf = true := by decide

/-- A packet that is an instruction, one that is none, and words of the table, an outcome word among them. -/
theorem witness_StepRunsTheDecodedInstruction :
    ({ holding [] with pending := [.op 12 []] }.pending = .op 12 [] :: [] ∧ decode params (.op 12 []) = .ok .check) ∧
    ({ holding [] with pending := [.op 31 []] }.pending = .op 31 [] :: [] ∧
      decode params (.op 31 []) = .error .unusedNumber) ∧
    (decodeTableWord 8 0x0C = some .check ∧ (holding []).cfg.head = 0xF7 ∧ (holding []).cfg.ctrW = 32 ∧
      (holding []).cfg.outcomeW = 16 ∧
      decodeTableWord 16 0x0006 = some (.outcomeFrameAccepted 6)) := by decide +kernel

/-- Nothing invoked: outside a DRAIN, with a receiver that ended, and inside a DRAIN. -/
theorem witness_IdleStepsOnlyContinueADrain :
    ((holding []).pending = [] ∧ (holding []).draining = false) ∧
    receiverLive { holding [] with rxHalted := true } = false ∧
    ({ holding frameA with draining := true }.pending = [] ∧ { holding frameA with draining := true }.draining = true ∧
      receiverLive { holding frameA with draining := true } = true ∧ Sound { holding frameA with draining := true }) :=
  ⟨⟨rfl, rfl⟩, rfl, rfl, rfl, rfl, sound_holding frameA (by decide)⟩

/-! ### The whole machine -/

theorem witness_StepKeepsTheInvariant : Sound { holding frameA with pending := [.op 16 []] } ∧
    after (step { holding frameA with pending := [.op 16 []] }) State.result = some (.outcome (.frameAccepted 6)) :=
  ⟨sound_holding frameA (by decide), by decide +kernel⟩

theorem witness_NothingButResetGoesBack : isReset .exitReq = false ∧
    after (exec .exitReq (holding [])) State.runState = some .exitRequested := by decide

theorem witness_EveryByteIsAccountedFor : Sound (holding frameA) ∧ isReset .apply = false ∧
    (∀ m : Nat, Instr.apply ≠ .consume m) ∧ after (exec .apply (holding frameA)) State.fill = some 0 :=
  ⟨sound_holding _ (by decide), rfl, fun m h => (by cases h), by decide +kernel⟩

/-- An operation of RXE, one that is not, and one of RXE that runs no APPLY. -/
theorem witness_AgentsKeepToTheirState :
    (isReset .apply = false ∧ receiverOp .apply = true ∧ after (exec .apply (holding frameA)) State.fill = some 0) ∧
    (isReset .pull = false ∧ receiverOp .pull = false ∧ after (exec .pull (holding frameA)) State.held = some 1) ∧
    (isReset .check = false ∧ runsApply .check = false ∧ after (exec .check (holding frameA)) State.fill = some 6) := by
  decide +kernel

/-- Memories that differ behind `fill`; an operation that completes, one that faults, one that is refused. -/
theorem witness_BytesBeyondFillAreNeverRead :
    (holding [0xF7]).cfg.wf = true ∧
      (∀ a : Nat, a < (holding [0xF7]).fill → Memory.read [(0, 0xF7), (1, 0x55)] a = (holding [0xF7]).buf.read a) ∧
    after (exec .check (holding [0xF7])) State.fill = some 1 ∧
    (match exec (.consume 2) (holding [0xF7]) with
      | .fault f => f = .consumeRange
      | _ => False) ∧
    (match exec .free (holding [0xF7]) with
      | .refused r => r = .lifecycleOrder
      | _ => False) := by
  refine ⟨rfl, fun a ha => ?_, by decide +kernel, rfl, rfl⟩
  have h0 : a = 0 := Nat.lt_one_iff.mp ha
  subst h0
  rfl

theorem witness_EmptySlotIsNeverRead : (holding []).msgValid = false ∧
    after (exec .pull (holding [])) State.held = some 1 := by decide +kernel

/-- An APPLY that ends the DRAIN under way and one after which it goes on; then each kind of arrival, and an append that
stops. -/
theorem witness_ArrivalsFirstFinishTheDrain :
    (Sound { holding frameA with draining := true } ∧ receiverLive { holding frameA with draining := true } = true ∧
      after (exec .apply { holding frameA with draining := true }) (fun u => (u.draining, u.fill)) =
        some (false, 0)) ∧
    (Sound { holding (frameA ++ frameB) with draining := true } ∧
      after (exec .apply { holding (frameA ++ frameB) with draining := true }) (fun u => (u.draining, u.fill)) =
        some (true, 7)) ∧
    after (exec .apply { holding frameA with draining := true }) (fun u =>
        (after (exec (.rxEvent (.data [0xAA])) u) State.fill, after (exec (.frame 1 3 [1, 2] 0xA6) u) State.msgValid,
          after (exec (.rxAppend [0xAA]) u) State.fill)) = some (some 1, some true, some 1) ∧
    after (exec .apply { holding frameA with draining := true }) (fun u =>
        (after (exec (.rxEvent .wouldBlock) u) State.fill, after (exec (.rxEvent .eof) u) State.rxHalted,
          after (exec (.rxEvent .err) u) State.rxHalted)) = some (some 0, some true, some true) ∧
    after (exec .apply { holding frameA with draining := true }) (fun u =>
        (faultOf (exec (.rxAppend []) u), faultOf (exec (.rxEvent (.data [])) u))) =
      some (some .appendSize, some .appendSize) :=
  ⟨⟨sound_holding frameA (by decide), rfl, by decide +kernel⟩,
    ⟨sound_holding (frameA ++ frameB) (by decide), by decide +kernel⟩, by decide +kernel, by decide +kernel,
    by decide +kernel⟩

end Sys2Proof.Tests
end

section
/-! The operand ranges of an operation invoked alone (R75, R88, R89, R101, R104, R133): when each range test fails, and
the stop that follows. -/

namespace Sys2Proof.Machine

/-! ## When a range test fails -/

/-- The operand `L` outside its range (R75). -/
theorem lengthOk_eq_false_iff (cfg : Params) (L : Nat) : lengthOk cfg L = false ↔ L < cfg.lMin ∨ cfg.lMax < L := by
  rw [Bool.eq_false_iff, ne_eq, lengthOk_iff, Decidable.not_and_iff_or_not, Nat.not_le, Nat.not_le]

/-- An accepted frame at the front has its length in range and its whole window in the buffer (R133). -/
theorem lengthOk_and_window_of_frameAt {cfg : Params} {m : Memory} {n L : Nat} (h : frameAt cfg m n L = true) :
    lengthOk cfg L = true ∧ L + cfg.frameOverhead ≤ n := by
  simp only [frameAt, Bool.and_eq_true, decide_eq_true_eq] at h
  obtain ⟨⟨⟨⟨hrange, hwindow⟩, -⟩, -⟩, -⟩ := h
  exact ⟨hrange, hwindow⟩

/-- The error path may start at 0 only as SCAN_START_HEAD after a HEAD mismatch at index 0 (R6, R101). -/
theorem scanStartOk_zero_eq_false_iff (cfg : Params) (m : Memory) (cause : SyncCause) :
    scanStartOk cfg m 0 cause = false ↔
      cause ≠ .head ∨ cfg.scanStartHead ≠ 0 ∨ m.read 0 = some cfg.head := by
  rw [scanStartOk, decide_eq_false (Nat.not_succ_le_self 0), Bool.false_or, Bool.and_eq_false_iff,
    Bool.and_eq_false_iff, decide_eq_false_iff_not, decide_eq_false_iff_not, decide_eq_false_iff_not, not_not,
    or_assoc, eq_comm (a := 0)]

/-! ## The stops of a live receiver -/

section
variable {s : State} (h : receiverLive s = true)
include h

/-- CRC8.VERIFY, PARSE.BOUNDS and PARSE.FIELDS stop on `L` outside L_MIN .. L_MAX (R75, R88, R89). -/
theorem exec_lengthRange {L : Nat} (hL : lengthOk s.cfg L = false) :
    exec (.crc8Verify L) s = .fault .lengthRange ∧ exec (.parseBounds L) s = .fault .lengthRange ∧
      exec (.parseFields L) s = .fault .lengthRange :=
  ⟨(exec_crc8Verify h L).trans (if_pos hL), (exec_parseBounds h L).trans (if_pos hL),
    (exec_parseFields h L).trans (if_pos hL)⟩

/-- CRC8.VERIFY and PARSE.FIELDS stop where the window is not whole (R31, R75, R89). -/
theorem exec_window_undefinedByte {L : Nat} (hL : lengthOk s.cfg L = true) (hn : s.fill < L + s.cfg.frameOverhead) :
    exec (.crc8Verify L) s = .fault .undefinedByte ∧ exec (.parseFields L) s = .fault .undefinedByte := by
  have hrange : ¬ lengthOk s.cfg L = false := by simp [hL]
  exact ⟨by rw [exec_crc8Verify h, if_neg hrange, if_pos hn], by rw [exec_parseFields h, if_neg hrange, if_pos hn]⟩

/-- DELIVER stops where no accepted frame stands at the front (R133, log 13). -/
theorem exec_deliver_noAcceptedFrame {L : Nat} (hf : ¬ frameAt s.cfg s.buf s.fill L = true) :
    exec (.deliver L) s = .fault .noAcceptedFrame :=
  (exec_deliver h L).trans (if_neg hf)

/-- SYNC.RESOLVE stops on a scan start it may not take and below MIN_PROBE bytes (R6, R101, R104). -/
theorem exec_syncResolve_resolveRange {start : Nat} {cause : SyncCause}
    (hr : scanStartOk s.cfg s.buf start cause = false ∨ s.fill < s.cfg.minProbe) :
    exec (.syncResolve start cause) s = .fault .resolveRange :=
  (exec_syncResolve h start cause).trans (if_pos hr)

end

/-- Settles O36, one range test after the other, each with the stop that the operation raises for it. -/
theorem operandsOutOfRangeStop : Obligations.OperandsOutOfRangeStop := by
  intro s h
  refine ⟨fun hn => ?head, fun hn => ?len, fun L hL => ?range, fun L hmin hmax hn => ?window,
    fun start cause hr => ?resolve⟩
  case head => rw [exec_parseHead h, if_pos (Nat.lt_one_iff.mpr hn)]
  case len => rw [exec_parseLen h, if_pos hn]
  case range =>
    have hbad : lengthOk s.cfg L = false := (lengthOk_eq_false_iff s.cfg L).mpr hL
    have hnoFrame : ¬ frameAt s.cfg s.buf s.fill L = true := fun hf =>
      Bool.eq_false_iff.mp hbad (lengthOk_and_window_of_frameAt hf).1
    obtain ⟨hverify, hbounds, hfields⟩ := exec_lengthRange h hbad
    exact ⟨hverify, hbounds, hfields, exec_deliver_noAcceptedFrame h hnoFrame⟩
  case window =>
    have hok : lengthOk s.cfg L = true := (lengthOk_iff s.cfg L).mpr ⟨hmin, hmax⟩
    have hnoFrame : ¬ frameAt s.cfg s.buf s.fill L = true := fun hf =>
      Nat.not_le.mpr hn (lengthOk_and_window_of_frameAt hf).2
    obtain ⟨hverify, hfields⟩ := exec_window_undefinedByte h hok hn
    exact ⟨hverify, hfields, exec_deliver_noAcceptedFrame h hnoFrame⟩
  case resolve =>
    apply exec_syncResolve_resolveRange h
    rcases hr with hn | ⟨rfl, hstart⟩
    · exact .inr hn
    · exact .inl ((scanStartOk_zero_eq_false_iff s.cfg s.buf cause).mpr hstart)

end Sys2Proof.Machine
end

section
/-! What one operation can do to the state, said once for the operations of RXE and once for those of the engine's
other agents (R26, R130, R171, R173), and what follows for the frame, the counters and the invariant. -/

namespace Sys2Proof.Machine

/-! ## Answers -/

theorem eq_of_answer {s t : State} {r : Result} (h : answer s r = .next t) :
    t = { s with result := r, cause := none, wakes := 0 } := by
  cases h
  rfl

theorem eq_of_answerRead {α : Type} {s t : State} {x : Option α} {f : α → Result} (h : answerRead s x f = .next t) :
    ∃ r : Result, t = { s with result := r, cause := none, wakes := 0 } := by
  cases x with
  | none => cases h
  | some a => exact ⟨f a, eq_of_answer h⟩

/-! ## The operations of RXE -/

/-- An operation of RXE that completes found the receiver live (R130). -/
theorem receiverLive_of_exec {i : Instr} {s t : State} (hr : receiverOp i = true) (h : exec i s = .next t) :
    receiverLive s = true := by
  cases i with
  | stats | message | crc8Bit | crc8Byte | crc8Block | pull | getStats | exitReq | join | free | reset => cases hr
  | _ => exact (onReceiver_next h).1

/-- What an operation of RXE can do to a state; the index says whether it runs an APPLY (R130, R173). -/
inductive ReceiverStep (s : State) : Bool → State → Prop
  /-- A test, a scan, SYNC.RESOLVE or CHECK: the flag and the outputs (R115, R117). -/
  | observe (flag : Bool) (r : Result) (c : Option SyncCause) :
      ReceiverStep s false { s with resync := flag, result := r, cause := c, wakes := 0 }
  /-- CONSUME (R132). -/
  | consume {m : Nat} {t : State} (h : consumeBytes m s.clearOutputs = .ok t) : ReceiverStep s false t
  /-- DELIVER (R133). -/
  | deliver {L : Nat} {t : State} (hf : frameAt s.cfg s.buf s.fill L = true)
      (h : deliverFrame L s.clearOutputs = .ok t) : ReceiverStep s false t
  /-- APPLY and the rows of its outcomes (R134, log 3). -/
  | apply {o : CheckOutcome} {u : State} (d : Bool) (h : applyOnce s.clearOutputs = .ok (o, u)) :
      ReceiverStep s true { u with draining := d }
  /-- DRAIN (R135). -/
  | drain {u : State} (h : drainUnder s.clearOutputs = .ok u) : ReceiverStep s true { u with result := .none }
  /-- RX_EVENT and FRAME (R136, log 3). -/
  | arrive {r : ReadResult} {t : State} (h : receiveEvent r s.clearOutputs = .ok t) : ReceiverStep s true t
  /-- RX_APPEND, which first finishes a DRAIN under way (R131, R166, log 9). -/
  | append {data : List Byte} {u v : State} (hd : finishDrain s.clearOutputs = .ok u)
      (h : appendBytes data u = .ok v) : ReceiverStep s true { v with result := .none }

theorem ReceiverStep.of_answer {s t : State} {r : Result} (h : answer s r = .next t) : ReceiverStep s false t :=
  eq_of_answer h ▸ .observe s.resync r none

theorem ReceiverStep.of_answerRead {α : Type} {s t : State} {x : Option α} {f : α → Result}
    (h : answerRead s x f = .next t) : ReceiverStep s false t := by
  obtain ⟨r, rfl⟩ := eq_of_answerRead h
  exact .observe s.resync r none

theorem ReceiverStep.of_verdict (s : State) (v : Verdict) : ReceiverStep s false (s.clearOutputs.withVerdict v) :=
  .observe v.resync (.outcome v.outcome) v.cause

theorem ReceiverStep.of_applyAnswering {s t : State} {o : CheckOutcome}
    (h : settle (applyAnswering o s.clearOutputs) = .next t) : ReceiverStep s true t := by
  obtain ⟨u, hu, rfl⟩ := applyAnswering_ok (settle_next.mp h)
  exact .apply _ hu

/-- Every operation of RXE that completes is such a step. -/
theorem receiverStep_of_exec {i : Instr} {s t : State} (hr : receiverOp i = true) (h : exec i s = .next t) :
    ReceiverStep s (runsApply i) t := by
  have hl := receiverLive_of_exec hr h
  cases i with
  | stats | message | crc8Bit | crc8Byte | crc8Block | pull | getStats | exitReq | join | free | reset => cases hr
  | parseProbe => exact .of_answer ((exec_parseProbe hl).symm.trans h)
  | syncGate => exact .of_answer ((exec_syncGate hl).symm.trans h)
  | syncScan start => exact .of_answerRead ((exec_syncScan hl start).symm.trans h)
  | check =>
    rw [exec_check hl] at h
    cases hv : checkFrame s.cfg s.resync s.buf s.fill with
    | none => rw [hv] at h; cases h
    | some v =>
      rw [hv] at h
      cases h
      exact .of_verdict s v
  | parseHead =>
    rw [exec_parseHead hl] at h
    split_ifs at h
    exact .of_answerRead h
  | parseLen =>
    rw [exec_parseLen hl] at h
    split_ifs at h
    exact .of_answerRead h
  | parseBounds L =>
    rw [exec_parseBounds hl] at h
    split_ifs at h
    exact .of_answer h
  | parseFields L =>
    rw [exec_parseFields hl] at h
    split_ifs at h
    exact .of_answerRead h
  | crc8Verify L =>
    rw [exec_crc8Verify hl] at h
    split_ifs at h
    exact .of_answerRead h
  | syncResolve start cause =>
    rw [exec_syncResolve hl] at h
    split_ifs at h
    cases hv : raiseSync s.cfg.head s.buf s.fill start cause with
    | none => rw [hv] at h; cases h
    | some v =>
      rw [hv] at h
      cases h
      exact .of_verdict s v
  | consume m => exact .consume (settle_next.mp ((exec_consume hl m).symm.trans h))
  | deliver L =>
    rw [exec_deliver hl] at h
    split_ifs at h with hf
    exact .deliver hf (settle_next.mp h)
  | outcomeNeedMoreData => exact .of_applyAnswering ((exec_outcomeNeedMoreData hl).symm.trans h)
  | outcomeFrameAccepted n => exact .of_applyAnswering ((exec_outcomeFrameAccepted hl n).symm.trans h)
  | outcomeDiscardBytes n => exact .of_applyAnswering ((exec_outcomeDiscardBytes hl n).symm.trans h)
  | apply =>
    rw [exec_apply hl] at h
    cases ha : applyOnce s.clearOutputs with
    | error f => rw [ha] at h; cases h
    | ok p =>
      rw [ha] at h
      cases h
      exact .apply _ ha
  | drain =>
    obtain ⟨u, hu, rfl⟩ := withoutResult_ok (settle_next.mp ((exec_drain hl).symm.trans h))
    exact .drain hu
  | rxEvent r => exact .arrive (settle_next.mp ((exec_rxEvent hl r).symm.trans h))
  | frame addr len payload crc =>
    exact .arrive (settle_next.mp ((exec_frame hl addr len crc payload).symm.trans h))
  | rxAppend data =>
    rw [exec_rxAppend hl] at h
    cases hd : finishDrain s.clearOutputs with
    | error f => rw [hd] at h; cases h
    | ok u =>
      rw [hd] at h
      obtain ⟨v, hv, rfl⟩ := withoutResult_ok (settle_next.mp h)
      exact .append hd hv

/-- RXE keeps to its own state and takes no message away (R26, R171). -/
theorem ReceiverStep.rxFrame {s t : State} {b : Bool} (h : ReceiverStep s b t) : RxFrame s t := by
  refine (RxFrame.clear s).trans ?_
  cases h with
  | observe flag r c => exact RxFrame.outputs s.clearOutputs flag s.draining r c 0
  | consume h => exact consumeBytes_frame h
  | deliver hf h => exact deliverFrame_frame h
  | apply d h => exact (applyOnce_frame h).trans ⟨rfl, id, id⟩
  | drain h => exact (drainUnder_frame h).trans ⟨rfl, id, id⟩
  | arrive h => exact receiveEvent_frame h
  | append hd h => exact ((finishDrain_frame hd).trans (appendBytes_frame h)).trans ⟨rfl, id, id⟩

/-- Without an APPLY no byte is counted (R173). -/
theorem ReceiverStep.counters {s t : State} (h : ReceiverStep s false t) :
    t.bytesRead = s.bytesRead ∧ t.bytesInvalid = s.bytesInvalid := by
  cases h with
  | observe flag r c => exact ⟨rfl, rfl⟩
  | consume h =>
    unfold consumeBytes at h
    split_ifs at h
    cases h
    exact ⟨rfl, rfl⟩
  | deliver hf h =>
    unfold deliverFrame at h
    split at h
    · cases h
    · split_ifs at h
      cases h
      exact ⟨rfl, rfl⟩

/-! ## The operations of the other agents -/

/-- What an operation of the engine that is none of RXE can do to a state: it leaves the receive path, takes at most
the message, and moves the lifecycle forward (R26, R169, R171). -/
structure EngineStep (s t : State) : Prop where
  frame : t = { s with
    bytesWrite := t.bytesWrite
    msgValid := t.msgValid
    runState := t.runState
    held := t.held
    result := t.result
    cause := t.cause
    wakes := t.wakes }
  slot : t.msgValid = true → s.msgValid = true
  order : s.runState.rank ≤ t.runState.rank
  bytesWrite_lt : s.bytesWrite < 2 ^ s.cfg.ctrW → t.bytesWrite < 2 ^ s.cfg.ctrW

/-- The outputs and the held callers are inside the frame. -/
theorem EngineStep.outputs (s : State) (n : Nat) (r : Result) (c : Option SyncCause) (w : Nat) :
    EngineStep s { s with held := n, result := r, cause := c, wakes := w } :=
  ⟨rfl, id, Nat.le_refl _, id⟩

theorem EngineStep.of_answer {s t : State} {r : Result} (h : answer s r = .next t) : EngineStep s t :=
  eq_of_answer h ▸ .outputs s s.held r none 0

/-- A lifecycle operation moves one state forward (R169). -/
theorem EngineStep.lifecycle (s : State) (r : RunState) (v : Bool) (w : Nat) (hr : s.runState.rank ≤ r.rank)
    (hv : v = true → s.msgValid = true) :
    EngineStep s { s.clearOutputs with runState := r, msgValid := v, wakes := w } :=
  ⟨rfl, hv, hr, id⟩

/-- A caller that gets its result (R137). -/
theorem EngineStep.of_takeMessage {s t : State} (h : takeMessage s.clearOutputs = some t) (n : Nat) :
    EngineStep s { t with held := n } := by
  rcases takeMessage_cases h with ⟨-, rfl⟩ | ⟨-, -, rfl⟩
  · exact ⟨rfl, nofun, Nat.le_refl _, id⟩
  · exact .outputs s n _ _ _

/-- An operation of another agent than RXE that completes found an engine (R130, R161). -/
theorem engineLive_of_exec {i : Instr} {s t : State} (hr : receiverOp i = false) (hreset : isReset i = false)
    (h : exec i s = .next t) : engineLive s = true := by
  cases i with
  | stats | message | crc8Bit | crc8Byte | crc8Block | pull | getStats | exitReq | join | free =>
    exact (onEngine_next h).1
  | reset => cases hreset
  | _ => cases hr

/-- Every operation of another agent that completes is such a step. -/
theorem engineStep_of_exec {i : Instr} {s t : State} (hr : receiverOp i = false) (hreset : isReset i = false)
    (h : exec i s = .next t) : EngineStep s t := by
  have hl := engineLive_of_exec hr hreset h
  cases i with
  | crc8Bit r => exact .of_answer ((exec_crc8Bit hl r).symm.trans h)
  | crc8Byte r b => exact .of_answer ((exec_crc8Byte hl r b).symm.trans h)
  | crc8Block data => exact .of_answer ((exec_crc8Block hl data).symm.trans h)
  | getStats => exact .of_answer ((exec_getStats hl).symm.trans h)
  | stats w =>
    obtain rfl := eq_of_answer ((exec_stats hl w).symm.trans h)
    exact ⟨rfl, id, Nat.le_refl _, fun _ => Nat.mod_lt w (Nat.two_pow_pos _)⟩
  | message =>
    rw [exec_message hl] at h
    split_ifs at h
    · exact .of_answer h
    · cases ht : takeMessage s.clearOutputs with
      | none => rw [ht] at h; exact .of_answer h
      | some u =>
        rw [ht] at h
        cases h
        exact .of_takeMessage ht _
  | pull =>
    rw [exec_pull hl] at h
    cases ht : takeMessage s.clearOutputs with
    | none =>
      rw [ht] at h
      cases h
      exact .outputs s _ _ _ _
    | some u =>
      rw [ht] at h
      cases h
      exact .of_takeMessage ht t.held
  | exitReq =>
    rw [exec_exitReq hl] at h
    split_ifs at h with hrun
    cases h
    exact .lifecycle s .exitRequested s.msgValid 1 (by rw [hrun]; decide) id
  | join =>
    rw [exec_join hl] at h
    split_ifs at h with hrun
    cases h
    exact .lifecycle s .joined s.msgValid 0 (by rw [hrun]; decide) id
  | free =>
    rw [exec_free hl] at h
    split_ifs at h with hrun
    cases h
    exact .lifecycle s .freed false 0 (by rw [hrun]; decide) nofun
  | reset => cases hreset
  | _ => cases hr

/-- Settles O55: RXE leaves the lifecycle alone, the other agents only move it forward. -/
theorem nothingButResetGoesBack : Obligations.NothingButResetGoesBack := by
  intro i s t hreset h
  cases hr : receiverOp i with
  | true =>
    have hf := (receiverStep_of_exec hr h).rxFrame
    have hrun : t.runState = s.runState := by rw [hf.frame]
    refine ⟨hrun ▸ Nat.le_refl _, hf.halted, ?_, ?_, ?_, ?_, ?_⟩ <;> rw [hf.frame]
  | false =>
    have hf := engineStep_of_exec hr hreset h
    have hhalted : t.rxHalted = s.rxHalted := by rw [hf.frame]
    refine ⟨hf.order, hhalted.trans, ?_, ?_, ?_, ?_, ?_⟩ <;> rw [hf.frame]

/-- Settles O57: the frames of the two kinds of step, and the counters where no APPLY runs. -/
theorem agentsKeepToTheirState : Obligations.AgentsKeepToTheirState := by
  intro i s t hreset h
  refine ⟨fun hr => ?others, fun hr => ?receiver, fun ha => ?counters⟩
  case others =>
    have hf := engineStep_of_exec hr hreset h
    refine ⟨?_, ?_, ?_, ?_, ?_, ?_, ?_, ?_, hf.slot⟩ <;> rw [hf.frame]
  case receiver =>
    have hf := (receiverStep_of_exec hr h).rxFrame
    refine ⟨?_, ?_, ?_, hf.slot⟩ <;> rw [hf.frame]
  case counters =>
    cases hr : receiverOp i with
    | true => exact (ha ▸ receiverStep_of_exec hr h).counters
    | false =>
      have hf := engineStep_of_exec hr hreset h
      constructor <;> rw [hf.frame]

end Sys2Proof.Machine
end

section
/-! The invariant `Sound` along every step, and the state it starts from (R6, R27, R28). -/

namespace Sys2Proof.Machine

/-! ## The parts of a step -/

theorem appendBytes_range {data : List Byte} {s t : State} (h : appendBytes data s = .ok t) :
    1 ≤ data.length ∧ s.fill + data.length ≤ s.cfg.bufCap := by
  unfold appendBytes at h
  split_ifs at h with hrange
  exact hrange

theorem consumeBytes_range {m : Nat} {s t : State} (h : consumeBytes m s = .ok t) : 1 ≤ m ∧ m ≤ s.fill := by
  unfold consumeBytes at h
  split_ifs at h with hrange
  exact hrange

theorem appendBytes_sound {data : List Byte} {s t : State} (hi : Sound s) (h : appendBytes data s = .ok t) :
    Sound t := by
  obtain ⟨hcfg, ⟨hwf, -, bytes, hc⟩, hslot, hcount⟩ := hi
  obtain ⟨h1, h2⟩ := appendBytes_range h
  rw [hc.1] at h2
  obtain ⟨buf, he, hh, hw⟩ := appendBytes_ok hc h1 h2
  obtain rfl := Except.ok.inj (he.symm.trans h)
  exact ⟨hcfg, ⟨hw hwf, h2, bytes ++ data, List.length_append.symm, hh⟩, hslot, hcount⟩

theorem consumeBytes_sound {m : Nat} {s t : State} (hi : Sound s) (h : consumeBytes m s = .ok t) : Sound t := by
  obtain ⟨hcfg, ⟨hwf, hcap, bytes, hc⟩, hslot, hcount⟩ := hi
  obtain ⟨h1, h2⟩ := consumeBytes_range h
  rw [hc.1] at h2 hcap
  obtain ⟨buf, he, hh, hw⟩ := consumeBytes_ok hc h1 h2
  obtain rfl := Except.ok.inj (he.symm.trans h)
  exact ⟨hcfg, ⟨hw hwf, (Nat.sub_le _ _).trans hcap, bytes.drop m, List.length_drop.symm, hh⟩, hslot, hcount⟩

/-- The payload of a whole window has the length that its LEN byte states (R36, R50). -/
theorem length_payloadOf {bytes : List Byte} {L : Nat} (h : L + 3 ≤ bytes.length) :
    (payloadOf bytes L).length = L - 1 := by
  simp only [payloadOf, List.length_take, List.length_drop]
  omega

/-- What DELIVER wants at the front is a frame of the contents (R133, log 13). -/
theorem Contents.frameAtFront {s : State} {bytes : List Byte} (hc : Contents s bytes) (hp : s.cfg.Relations) {L : Nat}
    (hf : frameAt s.cfg s.buf s.fill L = true) : FrameAtFront s.cfg bytes L := by
  obtain ⟨hL, hwindow⟩ := lengthOk_and_window_of_frameAt hf
  have hmin := ((lengthOk_iff s.cfg L).mp hL).1
  rw [hp.overhead, hc.1] at hwindow
  exact (hc.frameAt_iff hp L (by rw [hp.probe]; omega)).mp hf

theorem deliverFrame_sound {L : Nat} {s t : State} (hi : Sound s) (hf : frameAt s.cfg s.buf s.fill L = true)
    (h : deliverFrame L s = .ok t) : Sound t := by
  have hp := hi.relations
  obtain ⟨hcfg, hbuf, -, hcount⟩ := hi
  obtain ⟨bytes, hc⟩ := hbuf.2.2
  have hfront := hc.frameAtFront hp hf
  obtain ⟨a, -, he⟩ := deliverFrame_ok hc hp hfront
  obtain rfl := Except.ok.inj (he.symm.trans h)
  obtain ⟨⟨-, -, hmin, hmax, -⟩, hn, -⟩ := hfront
  have hL := toNat_ofNat_length (hmax.trans hp.lMax_le)
  exact ⟨hcfg, hbuf, fun _ => ⟨hL.symm ▸ hmin, hL.symm ▸ hmax, hL.symm ▸ length_payloadOf hn⟩, hcount⟩

theorem applyOnce_sound {o : CheckOutcome} {s t : State} (hi : Sound s) (h : applyOnce s = .ok (o, t)) : Sound t := by
  obtain ⟨-, ⟨-, -, bytes, hc⟩, -⟩ := id hi
  obtain ⟨o', t', bytes', he, hr, -⟩ := applyOnce_receives hi hc
  obtain ⟨-, rfl⟩ := Prod.mk.inj (Except.ok.inj (he.symm.trans h))
  exact hr.keeps hi

theorem drainUnder_sound {s t : State} (hi : Sound s) (h : drainUnder s = .ok t) : Sound t := by
  obtain ⟨t', he, hr⟩ := drainUnder_receives hi
  obtain rfl := Except.ok.inj (he.symm.trans h)
  exact hr.keeps hi

theorem finishDrain_sound {s t : State} (hi : Sound s) (h : finishDrain s = .ok t) : Sound t := by
  obtain ⟨t', he, hr, -⟩ := finishDrain_receives hi
  obtain rfl := Except.ok.inj (he.symm.trans h)
  exact hr.keeps hi

theorem receiveRead_sound {r : ReadResult} {s t : State} (hi : Sound s) (h : receiveRead r s = .ok t) : Sound t := by
  cases r with
  | data data =>
    simp only [receiveRead, receiveData] at h
    split at h
    · cases h
    · next ha => exact drainUnder_sound (appendBytes_sound hi ha) h
  | wouldBlock | eof | err => cases h; exact hi

theorem receiveEvent_sound {r : ReadResult} {s t : State} (hi : Sound s) (h : receiveEvent r s = .ok t) : Sound t := by
  unfold receiveEvent at h
  split at h
  · cases h
  · next hd =>
    obtain ⟨u, hu, rfl⟩ := withoutResult_ok h
    have hsound : Sound u := receiveRead_sound (finishDrain_sound hi hd) hu
    exact hsound

/-! ## Whole steps -/

/-- The invariant says nothing of the outputs. -/
theorem Sound.clearOutputs {s : State} (hi : Sound s) : Sound s.clearOutputs := hi

theorem ReceiverStep.sound {s t : State} {b : Bool} (hi : Sound s) (h : ReceiverStep s b t) : Sound t := by
  have hi' := hi.clearOutputs
  cases h with
  | observe flag r c => exact hi
  | consume h => exact consumeBytes_sound hi' h
  | deliver hf h => exact deliverFrame_sound hi' hf h
  | @apply o u d h =>
    have hu : Sound u := applyOnce_sound hi' h
    exact hu
  | @drain u h =>
    have hu : Sound u := drainUnder_sound hi' h
    exact hu
  | arrive h => exact receiveEvent_sound hi' h
  | @append data u v hd h =>
    have hv : Sound v := appendBytes_sound (finishDrain_sound hi' hd) h
    exact hv

theorem EngineStep.sound {s t : State} (hi : Sound s) (h : EngineStep s t) : Sound t := by
  obtain ⟨hcfg, hbuf, hslot, hr, hv, hw⟩ := hi
  rw [h.frame]
  exact ⟨hcfg, hbuf, fun hvalid => hslot (h.slot hvalid), hr, hv, h.bytesWrite_lt hw⟩

/-- A new engine under admissible parameters meets the invariant (R27, R180). -/
theorem fresh_sound {cfg : Params} (hcfg : cfg.wf = true) (d : BitVec 32) (k : DescriptorKind)
    (pending : List Packet) : Sound (State.fresh cfg d k pending) :=
  ⟨hcfg, ⟨Memory.wf_nil _, Nat.zero_le _, [], rfl, holds_nil⟩, nofun, Nat.two_pow_pos _, Nat.two_pow_pos _,
    Nat.two_pow_pos _⟩

theorem execReset_sound {d : BitVec 32} {k : DescriptorKind} {built : Construction} {s t : State} (hi : Sound s)
    (h : exec (.reset d k built) s = .next t) : Sound t := by
  have hfresh : Sound (State.fresh s.cfg d k s.pending) := fresh_sound hi.1 d k s.pending
  cases built with
  | succeeds | fails => cases h; exact hfresh

theorem exec_sound {i : Instr} {s t : State} (hi : Sound s) (h : exec i s = .next t) : Sound t := by
  cases hreset : isReset i with
  | true =>
    cases i with
    | reset d k built => exact execReset_sound hi h
    | _ => cases hreset
  | false =>
    cases hr : receiverOp i with
    | true => exact (receiverStep_of_exec hr h).sound hi
    | false => exact (engineStep_of_exec hr hreset h).sound hi

theorem idle_sound {s t : State} (hi : Sound s) (h : idle s = .next t) : Sound t := by
  unfold idle at h
  split_ifs at h
  · obtain ⟨u, hu, hr⟩ := drainStep_receives hi.clearOutputs
    obtain rfl := Except.ok.inj (hu.symm.trans (settle_next.mp h))
    exact hr.keeps hi.clearOutputs
  · cases h
    exact hi

/-! ## What a step fetches -/

/-- With nothing invoked a step is idle (R11, log 2). -/
theorem step_of_pending_nil {s : State} (h : s.pending = []) : step s = idle s := by
  simp only [step, fetch, h]

/-- A packet that is an instruction runs on the state without it (log 2). -/
theorem step_of_decode_ok {s : State} {p : Packet} {rest : List Packet} {i : Instr} (hp : s.pending = p :: rest)
    (hd : decode s.cfg p = .ok i) : step s = exec i { s with pending := rest } := by
  simp only [step, fetch, hp, hd]

/-- A packet that is no instruction is refused (log 8). -/
theorem step_of_decode_error {s : State} {p : Packet} {rest : List Packet} {e : DecodeError}
    (hp : s.pending = p :: rest) (hd : decode s.cfg p = .error e) : step s = .refused (.undecodable e) := by
  simp only [step, fetch, hp, hd]

/-- Settles O53, for an idle step and for each kind of operation. -/
theorem stepKeepsTheInvariant : Obligations.StepKeepsTheInvariant := by
  intro s t hi h
  cases hp : s.pending with
  | nil => exact idle_sound hi ((step_of_pending_nil hp).symm.trans h)
  | cons p rest =>
    have hrest : Sound { s with pending := rest } := hi
    cases hd : decode s.cfg p with
    | error e => cases (step_of_decode_error hp hd).symm.trans h
    | ok i => exact exec_sound hrest ((step_of_decode_ok hp hd).symm.trans h)

/-! ## The state after reset -/

/-- SHUTDOWN_LEN is negative, whatever its magnitude (R5, R63). -/
theorem shutdownLen_neg : Config.params.shutdownLen < 0 := by
  show -1 - (Config.shutdownMagnitude : Int) < 0
  omega

/-- The values of R5 keep the relations of R6. -/
theorem config_params_wf : Config.params.wf = true := by
  simp only [Params.wf, decide_eq_true shutdownLen_neg, Bool.and_true]
  rfl

/-- Settles O54: the parameters of R5 keep the relations, and the reset state is a new engine. -/
theorem resetMeetsTheInvariant : Obligations.ResetMeetsTheInvariant :=
  fresh_sound config_params_wf 0 .liveBus []

/-- Settles O44: all values but the last are closed terms. -/
theorem resetLeavesTheStatedValues : Obligations.ResetLeavesTheStatedValues :=
  ⟨rfl, rfl, rfl, rfl, rfl, rfl, rfl, rfl, rfl, rfl, rfl, rfl, shutdownLen_neg⟩

/-! ## The single steps and their answers -/

/-- Settles O41: the row STATS answers on every live engine. -/
theorem statusPortTakesTransmitCounter : Obligations.StatusPortTakesTransmitCounter :=
  fun _ w hl => (exec_stats hl w).trans (answer_eq _ _)

/-- Of the parameters the decoder takes HEAD and the widths of counters and outcome port only (R50, R60, R62). -/
theorem decode_congr {cfg cfg' : Params} (hhead : cfg.head = cfg'.head) (hctr : cfg.ctrW = cfg'.ctrW)
    (hport : cfg.outcomeW = cfg'.outcomeW) (p : Packet) : decode cfg p = decode cfg' p := by
  cases p with
  | wire bytes => simp only [decode, hhead]
  | outcome word => simp only [decode, hport]
  | status w r i => simp only [decode, hctr]
  | message | op => rfl

theorem decodeTableWord_eq_some {nbits w : Nat} {i : Instr} (h : decodeTableWord nbits w = some i) :
    decode Config.params (tablePacket nbits w) = .ok i := by
  unfold decodeTableWord at h
  split at h
  · next hd => rw [hd, Option.some.inj h]
  · cases h

/-- Settles O51: a fetched packet is decoded and run, and a placed word is fetched next. -/
theorem stepRunsTheDecodedInstruction : Obligations.StepRunsTheDecodedInstruction := by
  refine ⟨fun s p rest i => step_of_decode_ok, fun s p rest e => step_of_decode_error,
    fun s nbits w i hhead hctr hport hw => ?_⟩
  have hd : decode (placeWord s nbits w).cfg (tablePacket nbits w) = .ok i :=
    (decode_congr hhead hctr hport _).trans (decodeTableWord_eq_some hw)
  exact step_of_decode_ok (placeWord_pending s nbits w) hd

/-- Settles O52: an idle step inside a DRAIN is the APPLY that is that DRAIN's next iteration. -/
theorem idleStepsOnlyContinueADrain : Obligations.IdleStepsOnlyContinueADrain := by
  intro s hp
  rw [step_of_pending_nil hp]
  refine ⟨fun hoff => if_neg ?_, fun hd hl hi => ?_⟩
  · rw [Bool.and_eq_true]
    rintro ⟨hd, hl⟩
    rcases hoff with h | h
    · exact Bool.false_ne_true (h.symm.trans hd)
    · exact Bool.false_ne_true (h.symm.trans hl)
  · obtain ⟨-, ⟨-, -, bytes, hc⟩, -⟩ := id hi
    obtain ⟨o, t, -, he, -⟩ := applyOnce_receives hi.clearOutputs hc
    refine ⟨{ t with draining := !drainStops o t }, ?_, ?_⟩
    · rw [exec_apply hl, he, hd]
      rfl
    · rw [idle, hd, hl, drainStep, he]
      rfl

end Sys2Proof.Machine
end

section
/-! What no operation reads: the bytes of the buffer at and beyond `fill`, and the slot while it is not valid (R12, R17,
R31). Both are one simulation: two states that differ in such a part only give the same answer, and their next states
differ in such a part only. -/

namespace Sys2Proof.Machine

/-! ## Reads below a bound -/

/-- Two memories that answer the same below `n`. -/
def SameBelow (n : Nat) (m m' : Memory) : Prop := ∀ a : Nat, a < n → m'.read a = m.read a

section
variable {n : Nat} {m m' : Memory} (h : SameBelow n m m')
include h

theorem SameBelow.readN {addr k : Nat} (hk : addr + k ≤ n) : m'.readN addr k = m.readN addr k := by
  induction k generalizing addr with
  | zero => rfl
  | succ k ih => rw [Memory.readN, Memory.readN, h addr (by omega), ih (by omega)]

/-- CRC8.VERIFY reads its window only (R74, R75). -/
theorem SameBelow.crcVerify (cfg : Params) {L : Nat} (hL : L + 3 ≤ n) :
    Machine.crcVerify cfg m' L = Machine.crcVerify cfg m L := by
  rw [Machine.crcVerify, Machine.crcVerify, h.readN (by omega), h (L + 2) (by omega)]

/-- PARSE.FIELDS reads its window only (R89). -/
theorem SameBelow.readFields {L : Nat} (h1 : 1 ≤ L) (hL : L + 3 ≤ n) :
    Machine.readFields m' L = Machine.readFields m L := by
  rw [Machine.readFields, Machine.readFields, h 0 (by omega), h 1 (by omega), h 2 (by omega), h.readN (by omega),
    h (L + 2) (by omega)]

theorem SameBelow.scanFrom (head : Byte) {count k : Nat} (hk : k + count ≤ n ∨ count = 0) :
    Machine.scanFrom head m' k count = Machine.scanFrom head m k count := by
  induction count generalizing k with
  | zero => rfl
  | succ count ih => rw [Machine.scanFrom, Machine.scanFrom, h k (by omega), ih (by omega)]

/-- SYNC.SCAN reads the valid bytes only (R102). -/
theorem SameBelow.scan (head : Byte) (start : Nat) : Machine.scan head m' start n = Machine.scan head m start n :=
  h.scanFrom head (by omega)

/-- The error path reads the valid bytes only (R104). -/
theorem SameBelow.raiseSync (head : Byte) (start : Nat) (cause : SyncCause) :
    Machine.raiseSync head m' n start cause = Machine.raiseSync head m n start cause := by
  rw [Machine.raiseSync, Machine.raiseSync, h.scan]

theorem SameBelow.scanStartOk (cfg : Params) (hn : 1 ≤ n) (start : Nat) (cause : SyncCause) :
    Machine.scanStartOk cfg m' start cause = Machine.scanStartOk cfg m start cause := by
  rw [Machine.scanStartOk, Machine.scanStartOk, h 0 hn]

theorem SameBelow.checkCrc (cfg : Params) (resync : Bool) {L : Nat} (hL : L + 3 ≤ n) :
    Machine.checkCrc cfg resync m' n L = Machine.checkCrc cfg resync m n L := by
  simp only [Machine.checkCrc, h.crcVerify cfg hL, h.raiseSync]

section
variable {cfg : Params} (hp : cfg.Relations)
include hp

theorem SameBelow.checkLen (resync : Bool) (hn : 3 ≤ n) :
    Machine.checkLen cfg resync m' n = Machine.checkLen cfg resync m n := by
  simp only [Machine.checkLen, h 2 hn, h.raiseSync]
  cases m.read 2 with
  | none => rfl
  | some b2 =>
    simp only
    cases lenTest cfg b2 with
    | wait | fail => rfl
    | pass L =>
      simp only [boundsTest, hp.overhead]
      split_ifs with hL
      · rfl
      · exact h.checkCrc cfg resync (Nat.le_of_not_lt hL)

theorem SameBelow.checkHead (resync : Bool) (hn : 3 ≤ n) :
    Machine.checkHead cfg resync m' n = Machine.checkHead cfg resync m n := by
  simp only [Machine.checkHead, h 0 (by omega), h.raiseSync, h.checkLen hp resync hn]

/-- CHECK reads the valid bytes only, and none where there are fewer than MIN_PROBE (R6, R116). -/
theorem SameBelow.checkFrame (resync : Bool) :
    Machine.checkFrame cfg resync m' n = Machine.checkFrame cfg resync m n := by
  simp only [Machine.checkFrame, probeTest]
  split_ifs with hn
  · rfl
  · have hprobe := hp.probe
    simp only [h.raiseSync, h.checkHead hp resync (by omega)]

/-- What DELIVER wants at the front is inside the valid bytes (R133). -/
theorem SameBelow.frameAt (L : Nat) : Machine.frameAt cfg m' n L = Machine.frameAt cfg m n L := by
  by_cases hL : L + 3 ≤ n
  · rw [Machine.frameAt, Machine.frameAt, h 0 (by omega), h 2 (by omega), h.crcVerify cfg hL]
  · simp only [Machine.frameAt, hp.overhead, decide_eq_false hL, Bool.and_false, Bool.false_and]

end

/-- Whether SYNC.RESOLVE runs is told from the valid bytes only (R6, R104). -/
theorem SameBelow.resolveRange {cfg : Params} (hp : cfg.Relations) (start : Nat) (cause : SyncCause) :
    (Machine.scanStartOk cfg m' start cause = false ∨ n < cfg.minProbe) =
      (Machine.scanStartOk cfg m start cause = false ∨ n < cfg.minProbe) := by
  by_cases hn : n < cfg.minProbe
  · simp only [hn, or_true]
  · have hprobe := hp.probe
    rw [h.scanStartOk cfg (by omega)]

/-- An append keeps the agreement and adds the new bytes to it (R131). -/
theorem SameBelow.writeN (data : List Byte) :
    SameBelow (n + data.length) (m.writeN n data) (m'.writeN n data) := fun a ha => by
  rw [Memory.read_writeN, Memory.read_writeN]
  split_ifs with hnew
  · rfl
  · exact h a (by omega)

/-- A compaction keeps the agreement on what is left (R132). -/
theorem SameBelow.compact (k : Nat) : SameBelow (n - k) (m.compact k n) (m'.compact k n) := fun a ha => by
  rw [Memory.read_compact, Memory.read_compact, if_pos (by omega), if_pos (by omega), h (a + k) (by omega)]

end

/-! ## States that agree on what may be read -/

/-- A part of the state that is never read: the buffer's tail from `fill` on, or the slot while it is not valid. -/
inductive Unread where
  | tail
  | slot

/-- The memory `m` may stand for the buffer of `s`. -/
def BufAgrees (u : Unread) (s : State) (m : Memory) : Prop :=
  m = s.buf ∨ (u = .tail ∧ s.cfg.wf = true ∧ SameBelow s.fill s.buf m)

/-- The content `g` may stand for that of the slot of `s`. -/
def SlotAgrees (u : Unread) (s : State) (g : Message) : Prop :=
  g = s.msg ∨ (u = .slot ∧ s.msgValid = false)

/-- The states that differ from `s` in the unread part only. -/
inductive Agree (u : Unread) (s : State) : State → Prop
  | intro (m : Memory) (g : Message) (hb : BufAgrees u s m) (hg : SlotAgrees u s g) :
      Agree u s { s with buf := m, msg := g }

theorem Agree.refl (u : Unread) (s : State) : Agree u s s := .intro s.buf s.msg (.inl rfl) (.inl rfl)

/-- What depends on the valid bytes only is the same for both memories. -/
theorem BufAgrees.congr {α : Type} {u : Unread} {s : State} {m : Memory} {f : Memory → α} (h : BufAgrees u s m)
    (hf : s.cfg.Relations → SameBelow s.fill s.buf m → f m = f s.buf) : f m = f s.buf := by
  rcases h with rfl | ⟨-, hwf, hsame⟩
  · rfl
  · exact hf (Params.relations hwf) hsame

/-- A message that waits is the same in both states (R17). -/
theorem SlotAgrees.eq_of_valid {u : Unread} {s : State} {g : Message} (h : SlotAgrees u s g)
    (hv : s.msgValid = true) : g = s.msg := by
  rcases h with h | ⟨-, hn⟩
  · exact h
  · exact absurd (hn.symm.trans hv) Bool.false_ne_true

/-- Two computations that stop with the same fault, or end in related values. -/
inductive SameEnd {α : Type} (R : α → α → Prop) : Except Fault α → Except Fault α → Prop
  | ok {a b : α} (h : R a b) : SameEnd R (.ok a) (.ok b)
  | error (f : Fault) : SameEnd R (.error f) (.error f)

/-- Two steps that stop for the same reason, or lead to agreeing states. -/
inductive SameAnswer (u : Unread) :
    Host.Outcome State Fault Refusal → Host.Outcome State Fault Refusal → Prop
  | next {s s' : State} (h : Agree u s s') : SameAnswer u (.next s) (.next s')
  | fault (f : Fault) : SameAnswer u (.fault f) (.fault f)
  | refused (r : Refusal) : SameAnswer u (.refused r) (.refused r)

section
variable {u : Unread} {s s' : State}

/-! ## What agreeing states have in common -/

theorem Agree.cfg_eq (h : Agree u s s') : s'.cfg = s.cfg := by
  cases h
  rfl

theorem Agree.fill_eq (h : Agree u s s') : s'.fill = s.fill := by
  cases h
  rfl

theorem Agree.bytesRead_eq (h : Agree u s s') : s'.bytesRead = s.bytesRead := by
  cases h
  rfl

theorem Agree.resync_eq (h : Agree u s s') : s'.resync = s.resync := by
  cases h
  rfl

theorem Agree.draining_eq (h : Agree u s s') : s'.draining = s.draining := by
  cases h
  rfl

theorem Agree.held_eq (h : Agree u s s') : s'.held = s.held := by
  cases h
  rfl

/-! ## Gates and answers -/

theorem SameAnswer.ite {p : Prop} [Decidable p] {x x' y y' : Host.Outcome State Fault Refusal}
    (hx : p → SameAnswer u x x') (hy : ¬ p → SameAnswer u y y') :
    SameAnswer u (if p then x else y) (if p then x' else y') := by
  split_ifs with hp
  · exact hx hp
  · exact hy hp

theorem onEngine_agree {k k' : Host.Outcome State Fault Refusal} (h : Agree u s s') (hk : SameAnswer u k k') :
    SameAnswer u (onEngine s k) (onEngine s' k') := by
  cases h
  exact .ite (fun _ => .refused _) fun _ => .ite (fun _ => .refused _) fun _ => hk

theorem onReceiver_agree {k k' : Host.Outcome State Fault Refusal} (h : Agree u s s') (hk : SameAnswer u k k') :
    SameAnswer u (onReceiver s k) (onReceiver s' k') := by
  refine onEngine_agree h ?_
  cases h
  exact .ite (fun _ => .fault _) fun _ => .ite (fun _ => .fault _) fun _ => hk

theorem settle_agree {e e' : Except Fault State} (h : SameEnd (Agree u) e e') :
    SameAnswer u (settle e) (settle e') := by
  cases h with
  | ok h => exact .next h
  | error f => exact .fault f

theorem withoutResult_agree {e e' : Except Fault State} (h : SameEnd (Agree u) e e') :
    SameEnd (Agree u) (withoutResult e) (withoutResult e') := by
  rcases h with ⟨⟨m, g, hb, hg⟩⟩ | f
  · exact .ok (.intro m g hb hg)
  · exact .error f

theorem Agree.clearOutputs (h : Agree u s s') : Agree u s.clearOutputs s'.clearOutputs := by
  obtain ⟨m, g, hb, hg⟩ := h
  exact .intro m g hb hg

theorem Agree.withVerdict (h : Agree u s s') (v : Verdict) : Agree u (s.withVerdict v) (s'.withVerdict v) := by
  obtain ⟨m, g, hb, hg⟩ := h
  exact .intro m g hb hg

theorem Agree.withDraining (h : Agree u s s') (d : Bool) :
    Agree u { s with draining := d } { s' with draining := d } := by
  obtain ⟨m, g, hb, hg⟩ := h
  exact .intro m g hb hg

theorem Agree.withHeld (h : Agree u s s') (n : Nat) : Agree u { s with held := n } { s' with held := n } := by
  obtain ⟨m, g, hb, hg⟩ := h
  exact .intro m g hb hg

theorem Agree.withBytesRead (h : Agree u s s') (n : Counter) :
    Agree u { s with bytesRead := n } { s' with bytesRead := n } := by
  obtain ⟨m, g, hb, hg⟩ := h
  exact .intro m g hb hg

theorem Agree.withBytesInvalid (h : Agree u s s') (n : Counter) :
    Agree u { s with bytesInvalid := n } { s' with bytesInvalid := n } := by
  obtain ⟨m, g, hb, hg⟩ := h
  exact .intro m g hb hg

theorem answer_agree (h : Agree u s s') (r : Result) : SameAnswer u (answer s r) (answer s' r) := by
  obtain ⟨m, g, hb, hg⟩ := h
  exact .next (.intro m g hb hg)

theorem answerRead_agree {α : Type} (h : Agree u s s') {x x' : Option α} (hx : x' = x) (f : α → Result) :
    SameAnswer u (answerRead s x f) (answerRead s' x' f) := by
  subst hx
  cases x' with
  | none => exact .fault _
  | some a => exact answer_agree h (f a)

/-! ## The receive path -/

theorem appendBytes_agree (h : Agree u s s') (data : List Byte) :
    SameEnd (Agree u) (appendBytes data s) (appendBytes data s') := by
  obtain ⟨m, g, hb, hg⟩ := h
  simp only [appendBytes]
  split_ifs
  · refine .ok (.intro (m.writeN s.fill data) g ?_ hg)
    rcases hb with rfl | ⟨hu, hwf, hsame⟩
    · exact .inl rfl
    · exact .inr ⟨hu, hwf, hsame.writeN data⟩
  · exact .error _

theorem consumeBytes_agree (h : Agree u s s') (k : Nat) :
    SameEnd (Agree u) (consumeBytes k s) (consumeBytes k s') := by
  obtain ⟨m, g, hb, hg⟩ := h
  simp only [consumeBytes]
  split_ifs
  · refine .ok (.intro (m.compact k s.fill) g ?_ hg)
    rcases hb with rfl | ⟨hu, hwf, hsame⟩
    · exact .inl rfl
    · exact .inr ⟨hu, hwf, hsame.compact k⟩
  · exact .error _

/-- The operand of a DELIVER whose window is whole. -/
structure WindowIn (s : State) (L : Nat) : Prop where
  lengthOk : lengthOk s.cfg L = true
  whole : L + s.cfg.frameOverhead ≤ s.fill

theorem WindowIn.readFields_eq {L : Nat} (hw : WindowIn s L) {m : Memory} (hb : BufAgrees u s m) :
    readFields m L = readFields s.buf L :=
  hb.congr (f := (readFields · L)) fun hp hsame =>
    hsame.readFields (hp.lMin_pos.trans ((lengthOk_iff _ _).mp hw.lengthOk).1) (hp.overhead ▸ hw.whole)

theorem WindowIn.crcVerify_eq {L : Nat} (hw : WindowIn s L) {m : Memory} (hb : BufAgrees u s m) :
    crcVerify s.cfg m L = crcVerify s.cfg s.buf L :=
  hb.congr (f := (crcVerify s.cfg · L)) fun hp hsame => hsame.crcVerify s.cfg (hp.overhead ▸ hw.whole)

/-- DELIVER writes the slot whole, so the slots agree afterwards (R133). -/
theorem deliverFrame_agree (h : Agree u s s') {L : Nat} (hw : WindowIn s L) :
    SameEnd (Agree u) (deliverFrame L s) (deliverFrame L s') := by
  obtain ⟨m, g, hb, hg⟩ := h
  simp only [deliverFrame, hw.readFields_eq hb]
  cases readFields s.buf L with
  | none => exact .error _
  | some f =>
    simp only
    split_ifs
    · exact .error _
    · exact .ok (.intro m _ hb (.inl rfl))

theorem acceptFrame_agree (h : Agree u s s') {n : Nat} (hw : WindowIn s (n - s.cfg.frameOverhead)) :
    SameEnd (Agree u) (acceptFrame n s) (acceptFrame n s') := by
  have hd := deliverFrame_agree h hw
  rw [acceptFrame, acceptFrame, h.cfg_eq]
  generalize deliverFrame (n - s.cfg.frameOverhead) s = e, deliverFrame (n - s.cfg.frameOverhead) s' = e' at hd
  cases hd with
  | ok ht =>
    simp only [ht.bytesRead_eq]
    exact consumeBytes_agree (ht.withBytesRead _) n
  | error f => exact .error f

theorem discardFront_agree (h : Agree u s s') (n : Nat) :
    SameEnd (Agree u) (discardFront n s) (discardFront n s') := by
  have hc := h.withBytesInvalid (counterAdd s.cfg s.bytesInvalid n)
  cases h
  exact consumeBytes_agree hc n

/-- Where an outcome accepts a frame, its window is whole. -/
def AcceptsWindow (s : State) (o : CheckOutcome) : Prop :=
  ∀ n : Nat, o = .frameAccepted n → WindowIn s (n - s.cfg.frameOverhead)

theorem actOn_agree (h : Agree u s s') {o : CheckOutcome} (ho : AcceptsWindow s o) :
    SameEnd (Agree u) (actOn o s) (actOn o s') := by
  cases o with
  | needMoreData => exact .ok h
  | frameAccepted n => exact acceptFrame_agree h (ho n rfl)
  | discardBytes n => exact discardFront_agree h n

/-! ### CHECK accepts whole windows only, in every state -/

theorem raiseSync_ne_accepted {head : Byte} {m : Memory} {n start k : Nat} {cause : SyncCause} {v : Verdict}
    (h : raiseSync head m n start cause = some v) : v.outcome ≠ .frameAccepted k := by
  unfold raiseSync at h
  split at h <;> cases h <;> simp

theorem lenTest_pass {cfg : Params} {b : Byte} {L : Nat} (h : lenTest cfg b = .pass L) : lengthOk cfg L = true := by
  unfold lenTest at h
  split_ifs at h with hb
  cases h
  exact (lengthOk_iff cfg _).mpr (by omega)

theorem checkCrc_accepted {cfg : Params} {resync : Bool} {m : Memory} {n L k : Nat} {v : Verdict}
    (h : checkCrc cfg resync m n L = some v) (ho : v.outcome = .frameAccepted k) : k = L + cfg.frameOverhead := by
  unfold checkCrc at h
  split at h
  · cases h
    cases ho
    rfl
  · exact absurd ho (raiseSync_ne_accepted h)
  · cases h

theorem checkLen_accepted {cfg : Params} {resync : Bool} {m : Memory} {n k : Nat} {v : Verdict}
    (h : checkLen cfg resync m n = some v) (ho : v.outcome = .frameAccepted k) :
    lengthOk cfg (k - cfg.frameOverhead) = true ∧ k - cfg.frameOverhead + cfg.frameOverhead ≤ n := by
  unfold checkLen at h
  cases hb : m.read 2 with
  | none => simp only [hb] at h; cases h
  | some b2 =>
    simp only [hb] at h
    cases hL : lenTest cfg b2 with
    | wait => simp only [hL] at h; cases h
    | fail cause start => simp only [hL] at h; exact absurd ho (raiseSync_ne_accepted h)
    | pass L =>
      simp only [hL, boundsTest] at h
      by_cases hn : n < L + cfg.frameOverhead
      · simp only [hn, if_true] at h
        cases h
        cases ho
      · simp only [hn, if_false] at h
        obtain rfl := checkCrc_accepted h ho
        rw [Nat.add_sub_cancel]
        exact ⟨lenTest_pass hL, Nat.le_of_not_lt hn⟩

theorem checkHead_accepted {cfg : Params} {resync : Bool} {m : Memory} {n k : Nat} {v : Verdict}
    (h : checkHead cfg resync m n = some v) (ho : v.outcome = .frameAccepted k) :
    lengthOk cfg (k - cfg.frameOverhead) = true ∧ k - cfg.frameOverhead + cfg.frameOverhead ≤ n := by
  unfold checkHead at h
  cases hb : m.read 0 with
  | none => simp only [hb] at h; cases h
  | some b0 =>
    simp only [hb] at h
    cases hhead : headTest cfg b0 with
    | wait => simp only [hhead] at h; cases h
    | fail cause start => simp only [hhead] at h; exact absurd ho (raiseSync_ne_accepted h)
    | pass => simp only [hhead] at h; exact checkLen_accepted h ho

/-- An accepted window has a length in range and is whole, whatever the memory holds (R121 item 1). -/
theorem checkFrame_accepted {cfg : Params} {resync : Bool} {m : Memory} {n k : Nat} {v : Verdict}
    (h : checkFrame cfg resync m n = some v) (ho : v.outcome = .frameAccepted k) :
    lengthOk cfg (k - cfg.frameOverhead) = true ∧ k - cfg.frameOverhead + cfg.frameOverhead ≤ n := by
  unfold checkFrame at h
  cases hprobe : probeTest cfg n with
  | wait => simp only [hprobe] at h; cases h; cases ho
  | fail cause start => simp only [hprobe] at h; exact absurd ho (raiseSync_ne_accepted h)
  | pass =>
    simp only [hprobe] at h
    cases hgate : gateTest cfg resync with
    | wait => simp only [hgate] at h; cases h
    | fail cause start => simp only [hgate] at h; exact absurd ho (raiseSync_ne_accepted h)
    | pass => simp only [hgate] at h; exact checkHead_accepted h ho

/-! ### APPLY and DRAIN -/

/-- The same outcome, and agreeing states. -/
def AgreeWith (u : Unread) (p p' : CheckOutcome × State) : Prop := p'.1 = p.1 ∧ Agree u p.2 p'.2

/-- CHECK answers the same on both states (R118). -/
theorem checkFrame_agree (h : Agree u s s') :
    checkFrame s'.cfg s'.resync s'.buf s'.fill = checkFrame s.cfg s.resync s.buf s.fill := by
  obtain ⟨m, g, hb, hg⟩ := h
  exact hb.congr (f := (checkFrame s.cfg s.resync · s.fill)) fun hp hsame => hsame.checkFrame hp s.resync

theorem applyOnce_agree (h : Agree u s s') : SameEnd (AgreeWith u) (applyOnce s) (applyOnce s') := by
  rw [applyOnce, applyOnce, checkFrame_agree h]
  cases hv : checkFrame s.cfg s.resync s.buf s.fill with
  | none => exact .error _
  | some v =>
    have hw : AcceptsWindow (s.withVerdict v) v.outcome := fun n ho =>
      ⟨(checkFrame_accepted hv ho).1, (checkFrame_accepted hv ho).2⟩
    have ha := actOn_agree (h.withVerdict v) hw
    simp only
    generalize actOn v.outcome (s.withVerdict v) = e, actOn v.outcome (s'.withVerdict v) = e' at ha
    cases ha with
    | ok ht => exact .ok ⟨rfl, ht⟩
    | error f => exact .error f

theorem drainStops_agree (h : Agree u s s') (o : CheckOutcome) : drainStops o s' = drainStops o s := by
  cases h
  rfl

theorem drainStep_agree (h : Agree u s s') : SameEnd (Agree u) (drainStep s) (drainStep s') := by
  have ha := applyOnce_agree h
  rw [drainStep, drainStep]
  generalize applyOnce s = e, applyOnce s' = e' at ha
  rcases ha with @⟨⟨o, t⟩, ⟨_, t'⟩, ⟨rfl, ht⟩⟩ | f
  · simp only [drainStops_agree ht]
    exact .ok (ht.withDraining _)
  · exact .error f

theorem drainLoop_agree (h : Agree u s s') (fuel : Nat) :
    SameEnd (Agree u) (drainLoop fuel s) (drainLoop fuel s') := by
  induction fuel generalizing s s' with
  | zero => exact .ok (h.withDraining false)
  | succ fuel ih =>
    have ha := applyOnce_agree h
    rw [drainLoop, drainLoop]
    generalize applyOnce s = e, applyOnce s' = e' at ha
    rcases ha with @⟨⟨o, t⟩, ⟨_, t'⟩, ⟨rfl, ht⟩⟩ | f
    · simp only [drainStops_agree ht]
      split_ifs
      · exact .ok (ht.withDraining false)
      · exact ih ht
    · exact .error f

theorem drainAll_agree (h : Agree u s s') : SameEnd (Agree u) (drainAll s) (drainAll s') := by
  rw [drainAll, drainAll, h.fill_eq]
  exact drainLoop_agree h _

theorem drainUnder_agree (h : Agree u s s') : SameEnd (Agree u) (drainUnder s) (drainUnder s') := by
  rw [drainUnder, drainUnder, h.cfg_eq]
  cases s.cfg.atomicity with
  | iteration => exact drainStep_agree h
  | drain => exact drainAll_agree h

theorem finishDrain_agree (h : Agree u s s') : SameEnd (Agree u) (finishDrain s) (finishDrain s') := by
  rw [finishDrain, finishDrain, h.draining_eq]
  split_ifs
  · exact drainAll_agree h
  · exact .ok h

theorem applyAnswering_agree (h : Agree u s s') (o : CheckOutcome) :
    SameEnd (Agree u) (applyAnswering o s) (applyAnswering o s') := by
  have ha := applyOnce_agree h
  rw [applyAnswering, applyAnswering, h.draining_eq]
  generalize applyOnce s = e, applyOnce s' = e' at ha
  rcases ha with @⟨⟨o', t⟩, ⟨_, t'⟩, ⟨rfl, ht⟩⟩ | f
  · simp only [drainStops_agree ht]
    split_ifs
    · exact .ok (ht.withDraining _)
    · exact .error _
  · exact .error f

/-! ### Arrivals -/

theorem raiseTransportFatal_agree (h : Agree u s s') : Agree u (raiseTransportFatal s) (raiseTransportFatal s') := by
  obtain ⟨m, g, hb, hg⟩ := h
  exact .intro m g hb hg

theorem receiveRead_agree (h : Agree u s s') (r : ReadResult) :
    SameEnd (Agree u) (receiveRead r s) (receiveRead r s') := by
  cases r with
  | data data =>
    have ha := appendBytes_agree h data
    rw [receiveRead, receiveRead, receiveData, receiveData]
    generalize appendBytes data s = e, appendBytes data s' = e' at ha
    cases ha with
    | ok ht => exact drainUnder_agree ht
    | error f => exact .error f
  | wouldBlock => exact .ok h
  | eof | err => exact .ok (raiseTransportFatal_agree h)

theorem receiveEvent_agree (h : Agree u s s') (r : ReadResult) :
    SameEnd (Agree u) (receiveEvent r s) (receiveEvent r s') := by
  have hd := finishDrain_agree h
  rw [receiveEvent, receiveEvent]
  generalize finishDrain s = e, finishDrain s' = e' at hd
  cases hd with
  | ok ht => exact withoutResult_agree (receiveRead_agree ht r)
  | error f => exact .error f

/-! ## The consumer -/

/-- Only a valid message is taken, and it is the same in both states (R17, R137). -/
theorem takeMessage_agree (h : Agree u s s') : Option.Rel (Agree u) (takeMessage s) (takeMessage s') := by
  obtain ⟨m, g, hb, hg⟩ := h
  have hs : shuttingDown { s with buf := m, msg := g } = shuttingDown s := rfl
  simp only [takeMessage, hs]
  split_ifs with hv hd
  · obtain rfl := hg.eq_of_valid hv
    exact .some (.intro m s.msg hb (.inl rfl))
  · exact .some (.intro m g hb hg)
  · exact .none

theorem execPull_agree (h : Agree u s s') : SameAnswer u (execPull s) (execPull s') := by
  have ht := takeMessage_agree h.clearOutputs
  refine onEngine_agree h ?_
  generalize takeMessage s.clearOutputs = x, takeMessage s'.clearOutputs = x' at ht
  cases ht with
  | some ht => exact .next ht
  | none =>
    obtain ⟨m, g, hb, hg⟩ := h
    exact .next (.intro m g hb hg)

theorem execMessage_agree (h : Agree u s s') : SameAnswer u (execMessage s) (execMessage s') := by
  have ht := takeMessage_agree h.clearOutputs
  refine onEngine_agree h ?_
  rw [h.held_eq]
  refine .ite (fun _ => answer_agree h _) fun _ => ?_
  generalize takeMessage s.clearOutputs = x, takeMessage s'.clearOutputs = x' at ht
  cases ht with
  | some ht => exact .next (ht.withHeld _)
  | none => exact answer_agree h _

/-! ## The operations of RXE that only read -/

theorem execCheck_agree (h : Agree u s s') : SameAnswer u (execCheck s) (execCheck s') := by
  refine onReceiver_agree h ?_
  rw [checkFrame_agree h]
  cases checkFrame s.cfg s.resync s.buf s.fill with
  | none => exact .fault _
  | some v => exact .next (h.clearOutputs.withVerdict v)

theorem execSyncResolve_agree (h : Agree u s s') (start : Nat) (cause : SyncCause) :
    SameAnswer u (execSyncResolve start cause s) (execSyncResolve start cause s') := by
  refine onReceiver_agree h ?_
  have hc := h.clearOutputs
  obtain ⟨m, g, hb, hg⟩ := h
  have hrange : (scanStartOk s.cfg m start cause = false ∨ s.fill < s.cfg.minProbe) =
      (scanStartOk s.cfg s.buf start cause = false ∨ s.fill < s.cfg.minProbe) :=
    hb.congr (f := fun m => scanStartOk s.cfg m start cause = false ∨ s.fill < s.cfg.minProbe)
      fun hp hsame => hsame.resolveRange hp start cause
  have hraise : raiseSync s.cfg.head m s.fill start cause = raiseSync s.cfg.head s.buf s.fill start cause :=
    hb.congr (f := (raiseSync s.cfg.head · s.fill start cause)) fun _ hsame => hsame.raiseSync _ start cause
  simp only [hrange, hraise]
  refine .ite (fun _ => .fault _) fun _ => ?_
  cases raiseSync s.cfg.head s.buf s.fill start cause with
  | none => exact .fault _
  | some v => exact .next (hc.withVerdict v)

theorem execSyncScan_agree (h : Agree u s s') (start : Nat) :
    SameAnswer u (execSyncScan start s) (execSyncScan start s') := by
  refine onReceiver_agree h (answerRead_agree h ?_ _)
  obtain ⟨m, g, hb, hg⟩ := h
  exact hb.congr (f := (scan s.cfg.head · start s.fill)) fun _ hsame => hsame.scan s.cfg.head start

/-- A test of one byte below `fill`. -/
theorem answerByte_agree (h : Agree u s s') {a k : Nat} (hk : a < k) (f : Byte → Result) :
    SameAnswer u (if s.fill < k then .fault .undefinedByte else answerRead s (s.buf.read a) f)
      (if s'.fill < k then .fault .undefinedByte else answerRead s' (s'.buf.read a) f) := by
  rw [h.fill_eq]
  refine .ite (fun _ => .fault _) fun hn => answerRead_agree h ?_ f
  obtain ⟨m, g, hb, hg⟩ := h
  exact hb.congr (f := (Memory.read · a)) fun _ hsame => hsame a (by omega)

theorem execParseHead_agree (h : Agree u s s') : SameAnswer u (execParseHead s) (execParseHead s') := by
  refine onReceiver_agree h ?_
  rw [h.cfg_eq]
  exact answerByte_agree h Nat.zero_lt_one _

theorem execParseLen_agree (h : Agree u s s') : SameAnswer u (execParseLen s) (execParseLen s') := by
  refine onReceiver_agree h ?_
  rw [h.cfg_eq]
  exact answerByte_agree h (Nat.lt_succ_self 2) _

/-- What is read of a whole window. -/
theorem answerWindow_agree {α : Type} (h : Agree u s s') (L : Nat) {x x' : Option α}
    (hx : WindowIn s L → x' = x) (f : α → Result) :
    SameAnswer u
      (if lengthOk s.cfg L = false then .fault .lengthRange
       else if s.fill < L + s.cfg.frameOverhead then .fault .undefinedByte else answerRead s x f)
      (if lengthOk s'.cfg L = false then .fault .lengthRange
       else if s'.fill < L + s'.cfg.frameOverhead then .fault .undefinedByte else answerRead s' x' f) := by
  rw [h.cfg_eq, h.fill_eq]
  exact .ite (fun _ => .fault _) fun hL => .ite (fun _ => .fault _) fun hn =>
    answerRead_agree h (hx ⟨by simpa using hL, Nat.le_of_not_lt hn⟩) f

theorem execParseFields_agree (h : Agree u s s') (L : Nat) :
    SameAnswer u (execParseFields L s) (execParseFields L s') := by
  refine onReceiver_agree h (answerWindow_agree h L (fun hw => ?_) _)
  obtain ⟨m, g, hb, hg⟩ := h
  exact hw.readFields_eq hb

theorem execCrc8Verify_agree (h : Agree u s s') (L : Nat) :
    SameAnswer u (execCrc8Verify L s) (execCrc8Verify L s') := by
  refine onReceiver_agree h (answerWindow_agree h L (fun hw => ?_) _)
  obtain ⟨m, g, hb, hg⟩ := h
  exact hw.crcVerify_eq hb

theorem execParseBounds_agree (h : Agree u s s') (L : Nat) :
    SameAnswer u (execParseBounds L s) (execParseBounds L s') := by
  refine onReceiver_agree h ?_
  rw [h.cfg_eq, h.fill_eq]
  exact .ite (fun _ => .fault _) fun _ => answer_agree h _

theorem execParseProbe_agree (h : Agree u s s') : SameAnswer u (execParseProbe s) (execParseProbe s') := by
  refine onReceiver_agree h ?_
  rw [h.cfg_eq, h.fill_eq]
  exact answer_agree h _

theorem execSyncGate_agree (h : Agree u s s') : SameAnswer u (execSyncGate s) (execSyncGate s') := by
  refine onReceiver_agree h ?_
  rw [h.cfg_eq, h.resync_eq]
  exact answer_agree h _

/-! ## The operations of RXE that write -/

theorem execDeliver_agree (h : Agree u s s') (L : Nat) : SameAnswer u (execDeliver L s) (execDeliver L s') := by
  refine onReceiver_agree h ?_
  have hframe : frameAt s'.cfg s'.buf s'.fill L = frameAt s.cfg s.buf s.fill L := by
    obtain ⟨m, g, hb, hg⟩ := h
    exact hb.congr (f := (frameAt s.cfg · s.fill L)) fun hp hsame => hsame.frameAt hp L
  rw [hframe]
  refine .ite (fun hf => ?_) fun _ => .fault _
  obtain ⟨hL, hwhole⟩ := lengthOk_and_window_of_frameAt hf
  exact settle_agree (deliverFrame_agree h.clearOutputs ⟨hL, hwhole⟩)

theorem execApply_agree (h : Agree u s s') : SameAnswer u (execApply s) (execApply s') := by
  refine onReceiver_agree h ?_
  have ha := applyOnce_agree h.clearOutputs
  rw [h.draining_eq]
  generalize applyOnce s.clearOutputs = e, applyOnce s'.clearOutputs = e' at ha
  rcases ha with @⟨⟨o, t⟩, ⟨_, t'⟩, ⟨rfl, ht⟩⟩ | f
  · simp only [drainStops_agree ht]
    exact .next (ht.withDraining _)
  · exact .fault f

theorem execRxAppend_agree (h : Agree u s s') (data : List Byte) :
    SameAnswer u (execRxAppend data s) (execRxAppend data s') := by
  refine onReceiver_agree h ?_
  have hd := finishDrain_agree h.clearOutputs
  generalize finishDrain s.clearOutputs = e, finishDrain s'.clearOutputs = e' at hd
  cases hd with
  | ok ht => exact settle_agree (withoutResult_agree (appendBytes_agree ht data))
  | error f => exact .fault f

/-! ## The lifecycle -/

theorem execExitReq_agree (h : Agree u s s') : SameAnswer u (execExitReq s) (execExitReq s') := by
  refine onEngine_agree h ?_
  obtain ⟨m, g, hb, hg⟩ := h
  exact .ite (fun _ => .next (.intro m g hb hg)) fun _ => .refused _

theorem execJoin_agree (h : Agree u s s') : SameAnswer u (execJoin s) (execJoin s') := by
  refine onEngine_agree h ?_
  obtain ⟨m, g, hb, hg⟩ := h
  exact .ite (fun _ => .ite (fun _ => .refused _) fun _ => .next (.intro m g hb hg)) fun _ => .refused _

/-- FREE leaves the slot not valid, with agreeing content where it agreed before (R169, log 7). -/
theorem execFree_agree (h : Agree u s s') : SameAnswer u (execFree s) (execFree s') := by
  refine onEngine_agree h ?_
  obtain ⟨m, g, hb, hg⟩ := h
  exact .ite (fun _ => .next (.intro m g hb (hg.imp_right fun ⟨hu, _⟩ => ⟨hu, rfl⟩))) fun _ => .refused _

theorem execStats_agree (h : Agree u s s') (w : Counter) : SameAnswer u (execStats w s) (execStats w s') := by
  refine onEngine_agree h ?_
  obtain ⟨m, g, hb, hg⟩ := h
  exact .next (.intro m g hb hg)

theorem execReset_agree (h : Agree u s s') (d : BitVec 32) (k : DescriptorKind) (built : Construction) :
    SameAnswer u (execReset d k built s) (execReset d k built s') := by
  cases h
  cases built with
  | succeeds | fails => exact .next (.refl u _)

theorem execAnswer_agree (h : Agree u s s') {r r' : Result} (hr : r' = r) :
    SameAnswer u (onEngine s (answer s r)) (onEngine s' (answer s' r')) :=
  hr ▸ onEngine_agree h (answer_agree h _)

/-! ## All operations -/

/-- Every operation answers the same on agreeing states, and they agree afterwards (R12, R17, R31). -/
theorem exec_agree (h : Agree u s s') (i : Instr) : SameAnswer u (exec i s) (exec i s') := by
  have hc := h.clearOutputs
  cases i with
  | frame addr len payload crc =>
    refine onReceiver_agree h (settle_agree ?_)
    rw [h.cfg_eq]
    exact receiveEvent_agree hc _
  | outcomeNeedMoreData => exact onReceiver_agree h (settle_agree (applyAnswering_agree hc _))
  | outcomeFrameAccepted n => exact onReceiver_agree h (settle_agree (applyAnswering_agree hc _))
  | outcomeDiscardBytes n => exact onReceiver_agree h (settle_agree (applyAnswering_agree hc _))
  | stats w => exact execStats_agree h w
  | message => exact execMessage_agree h
  | crc8Bit r => exact execAnswer_agree h (by rw [h.cfg_eq])
  | crc8Byte r b => exact execAnswer_agree h (by rw [h.cfg_eq])
  | crc8Block data => exact execAnswer_agree h (by rw [h.cfg_eq])
  | crc8Verify L => exact execCrc8Verify_agree h L
  | parseProbe => exact execParseProbe_agree h
  | parseHead => exact execParseHead_agree h
  | parseLen => exact execParseLen_agree h
  | parseBounds L => exact execParseBounds_agree h L
  | parseFields L => exact execParseFields_agree h L
  | syncGate => exact execSyncGate_agree h
  | syncScan start => exact execSyncScan_agree h start
  | syncResolve start cause => exact execSyncResolve_agree h start cause
  | check => exact execCheck_agree h
  | rxAppend data => exact execRxAppend_agree h data
  | consume m => exact onReceiver_agree h (settle_agree (consumeBytes_agree hc m))
  | deliver L => exact execDeliver_agree h L
  | apply => exact execApply_agree h
  | drain => exact onReceiver_agree h (settle_agree (withoutResult_agree (drainUnder_agree hc)))
  | rxEvent r => exact onReceiver_agree h (settle_agree (receiveEvent_agree hc r))
  | pull => exact execPull_agree h
  | getStats => exact execAnswer_agree h (by cases h; rfl)
  | exitReq => exact execExitReq_agree h
  | join => exact execJoin_agree h
  | free => exact execFree_agree h
  | reset d k built => exact execReset_agree h d k built

end

/-! ## The two noninterference statements -/

section
variable {u : Unread} {x x' : Host.Outcome State Fault Refusal} (h : SameAnswer u x x')
include h

theorem SameAnswer.next_inv {t : State} (hx : x = .next t) : ∃ t' : State, x' = .next t' ∧ Agree u t t' := by
  cases h with
  | next ht => cases hx; exact ⟨_, rfl, ht⟩
  | fault | refused => cases hx

theorem SameAnswer.fault_inv {f : Fault} (hx : x = .fault f) : x' = .fault f := by
  cases h with
  | fault => exact hx
  | next | refused => cases hx

theorem SameAnswer.refused_inv {r : Refusal} (hx : x = .refused r) : x' = .refused r := by
  cases h with
  | refused => exact hx
  | next | fault => cases hx

end

/-- Settles O58: the simulation for the tail of the buffer. -/
theorem bytesBeyondFillAreNeverRead : Obligations.BytesBeyondFillAreNeverRead := by
  intro i s m hwf hsame
  have hstart : Agree .tail s { s with buf := m } := .intro m s.msg (.inr ⟨rfl, hwf, hsame⟩) (.inl rfl)
  have ha := exec_agree hstart i
  refine ⟨fun t ht => ?_, fun f => ha.fault_inv, fun r => ha.refused_inv⟩
  obtain ⟨t', ht', m', g, hb, hg⟩ := ha.next_inv ht
  obtain rfl : g = t.msg := hg.resolve_right nofun
  refine ⟨m', ht', ?_⟩
  rcases hb with rfl | ⟨-, -, hsame'⟩
  · exact fun _ _ => rfl
  · exact hsame'

/-- Settles O59: the simulation for the slot that is not valid. -/
theorem emptySlotIsNeverRead : Obligations.EmptySlotIsNeverRead := by
  intro i s g hv
  have hstart : Agree .slot s { s with msg := g } := .intro s.buf g (.inl rfl) (.inr ⟨rfl, hv⟩)
  have ha := exec_agree hstart i
  refine ⟨fun t ht => ?_, fun f => ha.fault_inv, fun r => ha.refused_inv⟩
  obtain ⟨t', ht', m, g', hb, hg⟩ := ha.next_inv ht
  obtain rfl : m = t.buf := hb.resolve_right nofun
  exact ⟨g', ht', hg.eq_of_valid⟩

end Sys2Proof.Machine
end

section
/-! The consumer's side of the slot: what PULL answers where no message waits, and how a held PULL is answered that
examines its condition again (R42, R43, R63, R137); and DRAIN under `ATOMICITY = iteration` (R38, R135). -/

namespace Sys2Proof.Machine

/-! ## The shutdown condition and its consumer -/

/-- The three ways to be shutting down (R137). -/
theorem shuttingDown_iff {s : State} :
    shuttingDown s = true ↔
      s.runState = .exitRequested ∨ s.runState = .joined ∨ (s.rxHalted = true ∧ s.cfg.eofSetsExit = true) := by
  rw [shuttingDown, Bool.or_eq_true, Bool.or_eq_true, decide_eq_true_eq, decide_eq_true_eq, Bool.and_eq_true, or_assoc]

/-- A running engine is not shutting down unless a fatal transport error counts as EXIT (R137, R160). -/
theorem shuttingDown_eq_false_of_running {s : State} (hrun : s.runState = .running)
    (hrx : s.rxHalted = false ∨ s.cfg.eofSetsExit = false) : shuttingDown s = false := by
  rw [Bool.eq_false_iff, ne_eq, shuttingDown_iff, hrun]
  rintro (h | h | ⟨hhalted, heof⟩)
  · cases h
  · cases h
  · rcases hrx with h | h
    · exact Bool.false_ne_true (h.symm.trans hhalted)
    · exact Bool.false_ne_true (h.symm.trans heof)

/-- A message that waits is taken, whether or not the engine is shutting down (R137). -/
theorem takeMessage_of_valid {s : State} (hv : s.msgValid = true) :
    takeMessage s = some { s with msgValid := false, result := .message s.msg } := by
  rw [takeMessage, if_pos hv]

/-- Without a message the sentinel is taken in shutdown (R42, R137). -/
theorem takeMessage_of_shuttingDown {s : State} (hv : s.msgValid = false) (hd : shuttingDown s = true) :
    takeMessage s = some { s with result := .shutdown } := by
  rw [takeMessage, if_neg (Bool.eq_false_iff.mp hv), if_pos hd]

section
variable {s : State} (hl : engineLive s = true)
include hl

/-- PULL with a result to be had (R137). -/
theorem exec_pull_of_some {t : State} (ht : takeMessage s.clearOutputs = some t) : exec .pull s = .next t := by
  rw [exec_pull hl, ht]

/-- PULL with none: the caller is held (R42, log 10). -/
theorem exec_pull_of_none (ht : takeMessage s.clearOutputs = none) :
    exec .pull s = .next { s.clearOutputs with held := s.held + 1, result := .held } := by
  rw [exec_pull hl, ht]

/-- MESSAGE with a caller held and a result to be had: that caller is held no longer (R43, R63, log 10). -/
theorem exec_message_of_some (hheld : 0 < s.held) {t : State} (ht : takeMessage s.clearOutputs = some t) :
    exec .message s = .next { t with held := t.held - 1 } := by
  rw [exec_message hl, if_neg hheld.ne', ht]

/-- MESSAGE with a caller held and none: that caller stays held (R43, log 10). -/
theorem exec_message_of_none (hheld : 0 < s.held) (ht : takeMessage s.clearOutputs = none) :
    exec .message s = answer s .held := by
  rw [exec_message hl, if_neg hheld.ne', ht]

end

/-- Settles O38: what PULL takes without a message turns on the shutdown condition alone. -/
theorem pullWithoutMessage : Obligations.PullWithoutMessage := by
  intro s hl hv
  refine ⟨fun hways => ?shutdown, fun hrun hrx => ?held⟩
  case shutdown => exact exec_pull_of_some hl (takeMessage_of_shuttingDown hv (shuttingDown_iff.mpr hways))
  case held =>
    exact exec_pull_of_none hl (takeMessage_none.mpr ⟨hv, shuttingDown_eq_false_of_running hrun hrx⟩)

/-- Settles O39: a held caller is answered with what PULL would take, and stays held where there is nothing to take. -/
theorem messageAnswersOneHeldCaller : Obligations.MessageAnswersOneHeldCaller := by
  intro s hl
  refine ⟨fun h0 => ?nobody, fun hheld hv => ?message, fun hheld hv hd => ?shutdown, fun hheld hv hd => ?held⟩
  case nobody => rw [exec_message hl, if_pos h0, answer_eq]
  case message => exact exec_message_of_some hl hheld (takeMessage_of_valid hv)
  case shutdown => exact exec_message_of_some hl hheld (takeMessage_of_shuttingDown hv hd)
  case held => exact exec_message_of_none hl hheld (takeMessage_none.mpr ⟨hv, hd⟩)

/-! ## DRAIN, one APPLY at a time -/

/-- One iteration of DRAIN is one APPLY, after which the loop goes on or stops (R135). -/
theorem drainStep_of_applyOnce {s t : State} {o : CheckOutcome} (h : applyOnce s = .ok (o, t)) :
    drainStep s = .ok { t with draining := !drainStops o t } := by
  rw [drainStep, h]

/-- DRAIN under the lock grain `iteration` (R38). -/
theorem drainUnder_iteration {s : State} (h : s.cfg.atomicity = .iteration) : drainUnder s = drainStep s := by
  rw [drainUnder, h]

/-- APPLY inside a DRAIN that is under way, from the same APPLY outside of one (R134, R135, log 9). -/
theorem exec_apply_draining {s t : State} {o : CheckOutcome} (hl : receiverLive s = true)
    (h : applyOnce s.clearOutputs = .ok (o, t)) :
    exec .apply { s with draining := true } = .next { t with draining := !drainStops o t } := by
  have hsame : ({ s with draining := true } : State).clearOutputs = s.clearOutputs.retag true .none none 0 := rfl
  rw [exec_apply (s := { s with draining := true }) hl, hsame, applyOnce_retag, h]
  simp only [Except.map, drainStops, Bool.true_and, Nat.zero_add]

/-- DRAIN under the lock grain `iteration`, from the APPLY of its one iteration (R38, R64, R135). -/
theorem exec_drain_iteration {s t : State} {o : CheckOutcome} (hl : receiverLive s = true)
    (hat : s.cfg.atomicity = .iteration) (h : applyOnce s.clearOutputs = .ok (o, t)) :
    exec .drain s = .next { t with draining := !drainStops o t, result := .none } := by
  rw [exec_drain hl, drainUnder_iteration (s := s.clearOutputs) hat, drainStep_of_applyOnce h]
  rfl

/-- Settles O31: APPLY answers on a sound state, and both operations are what it answers. -/
theorem drainIteratesApply : Obligations.DrainIteratesApply := by
  intro s hi hl hat
  obtain ⟨-, ⟨-, -, bytes, hc⟩, -⟩ := id hi
  obtain ⟨o, t, -, he, -⟩ := applyOnce_receives hi.clearOutputs hc
  exact ⟨{ t with draining := !drainStops o t }, exec_apply_draining hl he,
    exec_drain_iteration (t := t) hl hat he⟩

end Sys2Proof.Machine
end

section
/-! The codec: each operand reader reads back what the encoder writes (log 1), each format's reader what stands in its
packet (R50, R60), and so the decoder every well-formed instruction (R64). -/

namespace Sys2Proof

/-! ## Operand bytes -/

/-- A length byte holds every length of the operands' range (R5, R75). -/
theorem lengthOperand_ofNat (f : Nat → Instr) {L : Nat} (h : L ≤ 255) :
    lengthOperand f [BitVec.ofNat 8 L] = .ok (f L) := by
  rw [lengthOperand, Machine.toNat_ofNat_length h]

/-- The two bytes of a 16-bit operand give it back. -/
theorem halfOf_bytes {n : Nat} (h : n < 2 ^ 16) : halfOf (BitVec.ofNat 8 n) (BitVec.ofNat 8 (n / 256)) = n := by
  simp only [halfOf, BitVec.toNat_ofNat]
  omega

theorem halfOperand_halfBytes (f : Nat → Instr) {n : Nat} (h : n < 2 ^ 16) :
    halfOperand f (halfBytes n) = .ok (f n) := by
  rw [halfBytes, halfOperand, halfOf_bytes h]

theorem causeOf_causeByte (cause : SyncCause) : causeOf (causeByte cause) = .ok cause := by
  cases cause <;> rfl

theorem kindOf_kindByte (kind : DescriptorKind) : kindOf (kindByte kind) = .ok kind := by
  cases kind <;> rfl

theorem constructionOf_constructionByte (built : Construction) :
    constructionOf (constructionByte built) = .ok built := by
  cases built <;> rfl

theorem readOf_readBytes (r : ReadResult) : readOf (readBytes r) = .ok r := by
  cases r <;> rfl

/-- The four bytes of a descriptor handle give it back. -/
theorem wordOf_bytes (w : BitVec 32) :
    wordOf (w.extractLsb' 0 8) (w.extractLsb' 8 8) (w.extractLsb' 16 8) (w.extractLsb' 24 8) = w := by
  rw [wordOf, BitVec.extractLsb'_append_extractLsb'_eq_extractLsb' (by decide),
    BitVec.extractLsb'_append_extractLsb'_eq_extractLsb' (by decide),
    BitVec.extractLsb'_append_extractLsb'_eq_extractLsb' (by decide)]
  exact BitVec.extractLsb'_eq_self

theorem resolveOperands_bytes {start : Nat} (h : start < 2 ^ 16) (cause : SyncCause) :
    resolveOperands (halfBytes start ++ [causeByte cause]) = .ok (.syncResolve start cause) := by
  simp only [halfBytes, List.cons_append, List.nil_append, resolveOperands, causeOf_causeByte, halfOf_bytes h]

theorem readOperand_readBytes (r : ReadResult) : readOperand (readBytes r) = .ok (.rxEvent r) := by
  rw [readOperand, readOf_readBytes]

theorem resetOperands_bytes (w : BitVec 32) (kind : DescriptorKind) (built : Construction) :
    resetOperands (wordBytes w ++ [kindByte kind, constructionByte built]) = .ok (.reset w kind built) := by
  simp only [wordBytes, List.cons_append, List.nil_append, resetOperands, kindOf_kindByte,
    constructionOf_constructionByte, wordOf_bytes]

/-! ## The formats -/

/-- A frame is read from its bytes: the LEN byte says where the payload ends (R50). -/
theorem decodeWire_frameBytes (head addr crc : Byte) {len : Byte} {payload : List Byte}
    (h : payload.length = len.toNat - 1) :
    decodeWire head (frameBytes head addr len payload crc) = .ok (.frame addr len payload crc) := by
  simp only [frameBytes, decodeWire, ne_eq, not_true_eq_false, if_false, ← h, List.drop_left, List.take_left]

/-- A port that holds the outcomes has a sign bit (R60). -/
theorem Params.Relations.outcomeW_pos {p : Params} (h : p.Relations) : 0 < p.outcomeW := by
  refine Nat.pos_of_ne_zero fun h0 => ?_
  have := h.frame_port
  rw [h0] at this
  omega

/-- The range of an accepted frame's size fits below the sign bit, and in the table's 9 bits (R5, R60). -/
theorem Params.Relations.accepted_range {p : Params} (h : p.Relations) {n : Nat}
    (hn : WellFormed p (.outcomeFrameAccepted n) = true) : 0 < n ∧ n < 2 ^ (p.outcomeW - 1) ∧ n < 2 ^ 9 := by
  simp only [WellFormed, Bool.and_eq_true, decide_eq_true_eq, h.probe, h.frameMax] at hn
  have := h.lMax_le
  have := h.frame_port
  omega

/-- The range of a discard (R5, R60). -/
theorem Params.Relations.discard_range {p : Params} (h : p.Relations) {n : Nat}
    (hn : WellFormed p (.outcomeDiscardBytes n) = true) : 0 < n ∧ n ≤ 2 ^ (p.outcomeW - 1) := by
  simp only [WellFormed, Bool.and_eq_true, decide_eq_true_eq] at hn
  have := h.buf_port
  omega

/-- The negative half of the port's words (R60). -/
theorem two_pow_sub_discard {width n : Nat} (hw : 0 < width) (h1 : 0 < n) (h2 : n ≤ 2 ^ (width - 1)) :
    2 ^ width - n < 2 ^ width ∧ 2 ^ (width - 1) ≤ 2 ^ width - n ∧ 2 ^ width - (2 ^ width - n) = n := by
  have := Nat.two_pow_pred_add_two_pow_pred hw
  omega

theorem decodeOutcome_zero (width : Nat) : decodeOutcome width 0 = .ok .outcomeNeedMoreData := rfl

theorem decodeOutcome_accepted {width n : Nat} (h0 : 0 < n) (hsign : n < 2 ^ (width - 1)) (h9 : n < 2 ^ 9) :
    decodeOutcome width n = .ok (.outcomeFrameAccepted n) := by
  have hwidth : n < 2 ^ width := hsign.trans_le (Nat.pow_le_pow_right (by decide) (Nat.sub_le _ _))
  rw [decodeOutcome, if_neg h0.ne', if_neg hwidth.not_ge, if_neg hsign.not_ge, if_pos h9]

theorem decodeOutcome_discard {width n : Nat} (hw : 0 < width) (h1 : 0 < n) (h2 : n ≤ 2 ^ (width - 1)) :
    decodeOutcome width (2 ^ width - n) = .ok (.outcomeDiscardBytes n) := by
  obtain ⟨hlt, hsign, hback⟩ := two_pow_sub_discard hw h1 h2
  have h0 : 2 ^ width - n ≠ 0 := ((Nat.two_pow_pos _).trans_le hsign).ne'
  rw [decodeOutcome, if_neg h0, if_neg hlt.not_ge, if_pos hsign, hback]

/-! ## All instructions -/

/-- Settles O48: each row by the reader of its packet; the operand ranges of well-formedness are what the operands'
widths need. -/
theorem decodingUndoesEncoding : Obligations.DecodingUndoesEncoding := by
  intro cfg i hcfg hw
  have hp := Params.relations hcfg
  have hlength {L : Nat} (hL : lengthOk cfg L = true) : L ≤ 255 :=
    ((Machine.lengthOk_iff cfg L).mp hL).2.trans hp.lMax_le
  cases i with
  | frame addr len payload crc =>
    simp only [WellFormed, frameOk, Bool.and_eq_true, decide_eq_true_eq] at hw
    obtain ⟨⟨-, hpayload⟩, -⟩ := hw
    exact decodeWire_frameBytes cfg.head addr crc hpayload
  | outcomeNeedMoreData => exact decodeOutcome_zero cfg.outcomeW
  | outcomeFrameAccepted n =>
    obtain ⟨h0, hsign, h9⟩ := hp.accepted_range hw
    exact decodeOutcome_accepted h0 hsign h9
  | outcomeDiscardBytes n =>
    obtain ⟨h1, h2⟩ := hp.discard_range hw
    exact decodeOutcome_discard hp.outcomeW_pos h1 h2
  | stats w => exact if_pos (of_decide_eq_true hw)
  | crc8Verify L => exact lengthOperand_ofNat .crc8Verify (hlength hw)
  | parseBounds L => exact lengthOperand_ofNat .parseBounds (hlength hw)
  | parseFields L => exact lengthOperand_ofNat .parseFields (hlength hw)
  | deliver L => exact lengthOperand_ofNat .deliver (hlength hw)
  | syncScan start => exact halfOperand_halfBytes .syncScan (of_decide_eq_true hw)
  | syncResolve start cause => exact resolveOperands_bytes (of_decide_eq_true (Bool.and_eq_true_iff.mp hw).2) cause
  | consume m => exact halfOperand_halfBytes .consume (of_decide_eq_true (Bool.and_eq_true_iff.mp hw).2)
  | rxEvent r => exact readOperand_readBytes r
  | reset descriptor kind built => exact resetOperands_bytes descriptor kind built
  | message | crc8Bit | crc8Byte | crc8Block | parseProbe | parseHead | parseLen | syncGate | check | rxAppend | apply
  | drain | pull | getStats | exitReq | join | free => rfl

end Sys2Proof
end

section
/-! The words of the block's ports and of the opcode table: the outcome port carries what the encoder writes for the row
of the outcome (R59, R60), and every row of the table is read from its word (R64). -/

namespace Sys2Proof.Machine

/-! ## The outcome port -/

theorem outcomePort_accepted_toNat {width n : Nat} (hsign : n < 2 ^ (width - 1)) :
    (outcomePort width (.frameAccepted n)).toNat = n :=
  Nat.mod_eq_of_lt (hsign.trans_le (Nat.pow_le_pow_right (by decide) (Nat.sub_le _ _)))

theorem outcomePort_discard_toNat {width n : Nat} (hw : 0 < width) (h1 : 0 < n) (h2 : n ≤ 2 ^ (width - 1)) :
    (outcomePort width (.discardBytes n)).toNat = 2 ^ width - n := by
  have hhalves := Nat.two_pow_pred_add_two_pow_pred hw
  have hn : (BitVec.ofNat width n).toNat = n := Nat.mod_eq_of_lt (by omega)
  rw [outcomePort, BitVec.toNat_neg, hn]
  exact Nat.mod_eq_of_lt (by omega)

/-- The sign bit is set from the upper half of the words on (R60). -/
theorem getLsbD_sign_iff {width : Nat} (x : BitVec width) :
    x.getLsbD (width - 1) = true ↔ 2 ^ (width - 1) ≤ x.toNat := by
  rw [← BitVec.msb_eq_getLsbD_last, BitVec.msb_eq_decide, decide_eq_true_eq]

/-- The port's word is the one that the encoder writes for the row of the outcome (R59, R60). -/
theorem encode_outcomeInstr {cfg : Params} (hp : cfg.Relations) {o : CheckOutcome}
    (hw : WellFormed cfg (outcomeInstr o) = true) :
    encode cfg (outcomeInstr o) = .outcome (outcomePort cfg.outcomeW o).toNat := by
  cases o with
  | needMoreData => exact congrArg Packet.outcome BitVec.toNat_zero.symm
  | frameAccepted n =>
    obtain ⟨-, hsign, -⟩ := hp.accepted_range hw
    exact congrArg Packet.outcome (outcomePort_accepted_toNat hsign).symm
  | discardBytes n =>
    obtain ⟨h1, h2⟩ := hp.discard_range hw
    exact congrArg Packet.outcome (outcomePort_discard_toNat hp.outcomeW_pos h1 h2).symm

/-- The three ranges of the port's words: 0, the lower half without 0, the upper half (R60). -/
theorem outcomePort_range {cfg : Params} (hp : cfg.Relations) {o : CheckOutcome}
    (hw : WellFormed cfg (outcomeInstr o) = true) :
    (2 ^ (cfg.outcomeW - 1) ≤ (outcomePort cfg.outcomeW o).toNat ↔ ∃ n : Nat, o = .discardBytes n) ∧
      ((outcomePort cfg.outcomeW o).toNat = 0 ↔ o = .needMoreData) := by
  have hhalf := Nat.two_pow_pos (cfg.outcomeW - 1)
  cases o with
  | needMoreData => simp [outcomePort]
  | frameAccepted n =>
    obtain ⟨h0, hsign, -⟩ := hp.accepted_range hw
    simp [outcomePort_accepted_toNat hsign, hsign, h0.ne']
  | discardBytes n =>
    obtain ⟨h1, h2⟩ := hp.discard_range hw
    have hsign := (two_pow_sub_discard hp.outcomeW_pos h1 h2).2.1
    rw [outcomePort_discard_toNat hp.outcomeW_pos h1 h2]
    exact ⟨iff_of_true hsign ⟨n, rfl⟩, iff_of_false (hhalf.trans_le hsign).ne' nofun⟩

/-- Settles O49: the port's word decodes because it is the encoder's, and its range tells the outcomes apart. -/
theorem outcomePortReadsBackUniquely : Obligations.OutcomePortReadsBackUniquely := by
  refine ⟨rfl, fun cfg o hcfg hw => ?_⟩
  have hp := Params.relations hcfg
  obtain ⟨hsign, hzero⟩ := outcomePort_range hp hw
  refine ⟨?_, (getLsbD_sign_iff _).trans hsign, BitVec.toNat_inj.symm.trans hzero⟩
  rw [← encode_outcomeInstr hp hw]
  exact decodingUndoesEncoding cfg (outcomeInstr o) hcfg hw

/-! ## The words of the opcode table -/

/-- Settles O50: operations by their number alone, frames by their LEN byte, the status port by its width, and the
words of the table by evaluation. -/
theorem tableWordsDecodeToTheirRows : Obligations.TableWordsDecodeToTheirRows := by
  refine ⟨fun cfg a b c d e data => ?packets, fun cfg w r i hw => if_pos hw, ?words⟩
  case packets =>
    have hframe3 : decode cfg (.wire [cfg.head, a, 3, b, c, d]) = .ok (.frame a 3 [b, c] d) :=
      decodeWire_frameBytes cfg.head a d (len := 3) (payload := [b, c]) rfl
    have hframe4 : decode cfg (.wire [cfg.head, a, 4, b, c, d, e]) = .ok (.frame a 4 [b, c, d] e) :=
      decodeWire_frameBytes cfg.head a e (len := 4) (payload := [b, c, d]) rfl
    exact ⟨rfl, rfl, rfl, rfl, rfl, rfl, rfl, rfl, rfl, rfl, rfl, rfl, rfl, rfl, rfl, rfl, rfl, rfl, rfl, rfl, rfl, rfl,
      rfl, rfl, rfl, rfl, rfl, rfl, rfl, rfl, rfl, rfl, rfl, rfl, hframe3, hframe4, rfl⟩
  case words => decide

end Sys2Proof.Machine
end

section
/-! The rows of the outcomes and of the frame: what one APPLY of known outcome makes of APPLY and of the outcome's row
(R58, R119, R134, log 3), and the way of an intact frame from the wire to the consumer (R50, R66, R136, R137). -/

namespace Sys2Proof.Machine

/-! ## The row of an outcome -/

/-- A DRAIN ends where CHECK waits (R135). -/
theorem drainStops_needMoreData (t : State) : drainStops .needMoreData t = true := rfl

/-- After an outcome that consumes, a DRAIN goes on exactly where bytes are left (R135). -/
theorem not_drainStops_of_consumes {o : CheckOutcome} (ho : o ≠ .needMoreData) (t : State) :
    (!drainStops o t) = decide (t.fill ≠ 0) := by
  rw [drainStops, decide_eq_false ho, Bool.false_or, decide_not]

section
variable {s : State} (hl : receiverLive s = true)
include hl

/-- The row of the outcome that APPLY answers (R119, R134, log 3). -/
theorem exec_outcomeInstr_of_applyOnce {t : State} {o : CheckOutcome} (h : applyOnce s.clearOutputs = .ok (o, t)) :
    exec (outcomeInstr o) s = .next { t with draining := s.draining && !drainStops o t } := by
  rw [exec_outcomeInstr hl, applyAnswering_eq h, if_pos rfl]
  rfl

/-- The row of an outcome that consumes: a DRAIN under way goes on exactly where bytes are left (R134, R135, log 9). -/
theorem exec_outcomeInstr_of_consumes {t : State} {o : CheckOutcome} {left : Prop} [Decidable left]
    (h : applyOnce s.clearOutputs = .ok (o, t)) (ho : o ≠ .needMoreData) (hleft : t.fill ≠ 0 ↔ left) :
    exec (outcomeInstr o) s = .next { t with draining := s.draining && decide left } := by
  rw [exec_outcomeInstr_of_applyOnce hl h, not_drainStops_of_consumes ho, decide_eq_decide.mpr hleft]

/-- The row of another outcome is not on the port (R119, log 3). -/
theorem exec_outcomeInstr_of_ne {t : State} {o o' : CheckOutcome} (h : applyOnce s.clearOutputs = .ok (o', t))
    (hne : o' ≠ o) : exec (outcomeInstr o) s = .fault .outcomeNotAnswered := by
  rw [exec_outcomeInstr hl, applyAnswering_eq h, if_neg hne]
  rfl

/-- An APPLY that completes returns its outcome as its result (R134). -/
theorem applyOnce_of_exec_apply {t : State} (h : exec .apply s = .next t) :
    ∃ (o : CheckOutcome) (u : State), applyOnce s.clearOutputs = .ok (o, u) ∧ t.result = .outcome o ∧
      t = { u with draining := s.draining && !drainStops o u } := by
  rw [exec_apply hl] at h
  cases ha : applyOnce s.clearOutputs with
  | error f => rw [ha] at h; cases h
  | ok p =>
    obtain ⟨o, u⟩ := p
    rw [ha] at h
    cases h
    exact ⟨o, u, rfl, (applyOnce_outputs ha).1, rfl⟩

end

/-- Settles O46: APPLY's outcome by what stands in the buffer, and the rows by APPLY's outcome. -/
theorem outcomesObligeTheCaller : Obligations.OutcomesObligeTheCaller := by
  intro s bytes hl hcfg hc
  have hp : s.clearOutputs.cfg.Relations := Params.relations hcfg
  have hc' : Contents s.clearOutputs bytes := hc
  refine ⟨fun hw => ?waits, fun L a hr hf ha => ?accepts, fun cause start n flag hf hres => ?fails, fun o t h => ?row⟩
  case waits =>
    refine (exec_outcomeInstr_of_applyOnce hl (applyOnce_waits hc' hp hw)).trans ?_
    rw [drainStops_needMoreData, Bool.not_true, Bool.and_false]
    rfl
  case accepts =>
    obtain ⟨a', m, ha', hm, -, he⟩ := applyOnce_accepts hc' hp hr hf
    obtain rfl := Option.some.inj (ha'.symm.trans ha)
    have hleft : bytes.length - (L + 3) ≠ 0 ↔ bytes.length ≠ L + 3 := by
      have := hf.2.1
      omega
    rw [← hr] at he
    exact ⟨m, exec_outcomeInstr_of_consumes hl he nofun hleft, hm⟩
  case fails =>
    obtain ⟨k, flag', m, hres', -, hk, hm, -, he⟩ := applyOnce_fails hc' hp hf
    obtain ⟨ho, rfl⟩ := Resolves.unique hres' hres
    obtain rfl := CheckOutcome.discardBytes.inj ho
    have hleft : bytes.length - k ≠ 0 ↔ k ≠ bytes.length := by omega
    exact ⟨m, exec_outcomeInstr_of_consumes hl he nofun hleft, hm⟩
  case row =>
    obtain ⟨o', u, ha, hresult, rfl⟩ := applyOnce_of_exec_apply hl h
    refine ⟨fun heq => ?_, fun hne => exec_outcomeInstr_of_ne hl ha fun heq => hne (heq ▸ hresult)⟩
    obtain rfl := Result.outcome.inj (hresult.symm.trans heq)
    exact exec_outcomeInstr_of_applyOnce hl ha

/-! ## An intact frame -/

theorem length_frameBytes (head addr len crc : Byte) (payload : List Byte) :
    (frameBytes head addr len payload crc).length = payload.length + 4 := by
  simp [frameBytes]

/-- The bytes of the legal frame with this address and payload (R50, R66). -/
def legalFrame (cfg : Params) (addr : Byte) (payload : List Byte) : List Byte :=
  frameBytes cfg.head addr (BitVec.ofNat 8 (payload.length + 1)) payload
    (crc8 cfg (BitVec.ofNat 8 (payload.length + 1) :: payload))

/-- The row FRAME with R66's frame is one read of its bytes (log 3). -/
theorem exec_frameOf {s : State} (hl : receiverLive s = true) (addr : Byte) (payload : List Byte) :
    exec (frameOf s.cfg addr payload) s =
      settle (receiveEvent (.data (legalFrame s.cfg addr payload)) s.clearOutputs) :=
  exec_frame hl ..

theorem payloadOf_legalFrame (cfg : Params) (addr : Byte) (payload : List Byte) :
    payloadOf (legalFrame cfg addr payload) (payload.length + 1) = payload := by
  simp [payloadOf, legalFrame, frameBytes]

theorem spanOf_legalFrame (cfg : Params) (addr : Byte) (payload : List Byte) :
    spanOf (legalFrame cfg addr payload) (payload.length + 1) = BitVec.ofNat 8 (payload.length + 1) :: payload := by
  simp [spanOf, legalFrame, frameBytes]

/-- A legal frame is a whole window with a legal header and a matching CRC8 byte (R50, R121 item 1). -/
theorem frameAtFront_legalFrame {cfg : Params} (hp : cfg.Relations) (addr : Byte) {payload : List Byte}
    (hmin : cfg.lMin ≤ payload.length + 1) (hmax : payload.length + 1 ≤ cfg.lMax) :
    FrameAtFront cfg (legalFrame cfg addr payload) (payload.length + 1) := by
  have hlen : (legalFrame cfg addr payload).length = payload.length + 4 := length_frameBytes ..
  refine ⟨⟨?_, rfl, hmin, hmax, rfl⟩, hlen.ge, ?_⟩
  · rw [hlen, hp.probe]
    omega
  · rw [spanOf_legalFrame]
    simp [legalFrame, frameBytes]

/-- RX_APPEND into the empty buffer (R131). -/
theorem appendBytes_empty {s : State} (hc : Contents s []) {data : List Byte} (h1 : 1 ≤ data.length)
    (h2 : data.length ≤ s.cfg.bufCap) :
    ∃ m : Memory, appendBytes data s = .ok { s with buf := m, fill := data.length } ∧ Holds m data := by
  obtain ⟨m, he, hm, -⟩ := appendBytes_ok hc h1 (by simpa using h2)
  exact ⟨m, by simpa using he, hm⟩

/-- An APPLY that empties the buffer ends the DRAIN, under either grain of atomicity (R38, R135). -/
theorem drainUnder_of_empties {s t : State} {o : CheckOutcome} (h : applyOnce s = .ok (o, t)) (hfill : t.fill = 0) :
    drainUnder s = .ok { t with draining := false } := by
  have hstops : drainStops o t = true := by simp [drainStops, hfill]
  unfold drainUnder
  cases s.cfg.atomicity with
  | iteration => rw [drainStep_of_applyOnce h, hstops]; rfl
  | drain => simp only [drainAll, drainLoop, h, hstops, if_true]

/-- A read of data outside of a DRAIN, of which one APPLY leaves nothing in the buffer (R131, R135, R136). -/
theorem receiveEvent_data_consumed {s u t : State} {data : List Byte} {o : CheckOutcome} (hd : s.draining = false)
    (ha : appendBytes data s = .ok u) (h : applyOnce u = .ok (o, t)) (hfill : t.fill = 0) :
    receiveEvent (.data data) s = .ok { t with draining := false, result := .none } := by
  have hfinish : finishDrain s = .ok s := if_neg (Bool.eq_false_iff.mp hd)
  simp only [receiveEvent, hfinish, receiveRead, receiveData, ha, drainUnder_of_empties h hfill, withoutResult]

/-- One read of a legal frame into the empty buffer, in sync and outside of a DRAIN (R121 item 1, R136, R141). -/
theorem receiveEvent_legalFrame {s : State} (hp : s.cfg.Relations) (hc : Contents s []) (hr : s.resync = false)
    (hd : s.draining = false) (addr : Byte) {payload : List Byte} (hmin : s.cfg.lMin ≤ payload.length + 1)
    (hmax : payload.length + 1 ≤ s.cfg.lMax) :
    ∃ m : Memory, receiveEvent (.data (legalFrame s.cfg addr payload)) s = .ok { s with
      buf := m
      bytesRead := counterAdd s.cfg s.bytesRead (payload.length + 4)
      msg := { addr := addr, len := BitVec.ofNat 8 (payload.length + 1), payload := payload }
      msgValid := true
      result := .none
      cause := none
      wakes := s.wakes + 1 } := by
  have hlen : (legalFrame s.cfg addr payload).length = payload.length + 4 := length_frameBytes ..
  have hfits : (legalFrame s.cfg addr payload).length ≤ s.cfg.bufCap := by
    have := hp.frame_le
    omega
  obtain ⟨m, happend, hm⟩ := appendBytes_empty hc (by omega) hfits
  have hcontents : Contents { s with buf := m, fill := (legalFrame s.cfg addr payload).length }
      (legalFrame s.cfg addr payload) := ⟨rfl, hm⟩
  obtain ⟨a, m', ha, -, -, happly⟩ :=
    applyOnce_accepts hcontents hp hr (frameAtFront_legalFrame hp addr hmin hmax)
  obtain rfl : addr = a := Option.some.inj ha
  have hleft : (legalFrame s.cfg addr payload).length - (payload.length + 1 + 3) = 0 := by omega
  refine ⟨m', (receiveEvent_data_consumed hd happend happly hleft).trans ?_⟩
  have hfill : s.fill = 0 := hc.1
  simp only [payloadOf_legalFrame, hleft, hfill, hr, hd]

/-- Settles O45: the frame's bytes arrive as one read, and PULL finds the slot filled. -/
theorem intactFrameIsDelivered : Obligations.IntactFrameIsDelivered := by
  intro s a payload hi hl hfill hr hd hmin hpay
  have hp := hi.relations
  have hmax : payload.length + 1 ≤ s.cfg.lMax := by
    rw [Params.payloadMax] at hpay
    have := hp.lMin_pos
    have := hp.lMin_le
    omega
  have hempty : Contents s.clearOutputs [] := by
    obtain ⟨-, ⟨-, -, bytes, hc⟩, -⟩ := hi
    obtain rfl := List.length_eq_zero_iff.mp (hc.1.symm.trans hfill)
    exact hc
  obtain ⟨m, hrecv⟩ := receiveEvent_legalFrame (s := s.clearOutputs) hp hempty hr hd a hmin hmax
  refine ⟨_, _, (exec_frameOf hl a payload).trans (settle_next.mpr hrecv), rfl,
    exec_pull_of_some ?live (takeMessage_of_valid rfl), rfl⟩
  case live => exact engineLive_of_receiverLive hl

end Sys2Proof.Machine
end

section
/-! Unit CRC: a bit step, and so the absorption of a byte and of a sequence, is linear over XOR, and one to one where
POLY's constant term is set (R71 to R73, R77); the four operations of the unit (R64, R71 to R75). -/

namespace Sys2Proof.Machine

/-! ## One bit step -/

theorem crcBit_of_set {poly r : Byte} (h : r.getLsbD 7 = true) : crcBit poly r = r <<< 1 ^^^ poly := if_pos h

theorem crcBit_of_clear {poly r : Byte} (h : r.getLsbD 7 = false) : crcBit poly r = r <<< 1 :=
  if_neg (Bool.eq_false_iff.mp h)

@[simp] theorem crcBit_zero (poly : Byte) : crcBit poly 0 = 0 := crcBit_of_clear rfl

/-- The bit step with the test of bit 7 as the choice of a summand (R71, log 16). -/
theorem crcBit_eq_xor (poly r : Byte) : crcBit poly r = r <<< 1 ^^^ (if r.getLsbD 7 then poly else 0) := by
  cases h : r.getLsbD 7 with
  | true => exact crcBit_of_set h
  | false => exact (crcBit_of_clear h).trans BitVec.xor_zero.symm

/-- The summand that bit 7 chooses is linear in the bit. -/
theorem ite_xor_eq_xor_ite (poly : Byte) (b c : Bool) :
    (if b ^^ c then poly else 0) = (if b then poly else 0) ^^^ (if c then poly else 0) := by
  cases b <;> cases c <;> simp

theorem crcBit_xor (poly x y : Byte) : crcBit poly (x ^^^ y) = crcBit poly x ^^^ crcBit poly y := by
  simp only [crcBit_eq_xor, BitVec.shiftLeft_xor_distrib, BitVec.getLsbD_xor, ite_xor_eq_xor_ite]
  ac_rfl

/-- The bit shifted out comes back as bit 0 where POLY's constant term is set. -/
theorem crcBit_getLsbD_zero {poly : Byte} (hp : poly.getLsbD 0 = true) (r : Byte) :
    (crcBit poly r).getLsbD 0 = r.getLsbD 7 := by
  cases h : r.getLsbD 7 with
  | true => rw [crcBit_of_set h, BitVec.getLsbD_xor, hp, BitVec.getLsbD_shiftLeft]; rfl
  | false => rw [crcBit_of_clear h, BitVec.getLsbD_shiftLeft]; rfl

theorem getLsbD_seven_iff (r : Byte) : r.getLsbD 7 = true ↔ 128 ≤ r.toNat := getLsbD_sign_iff r

theorem toNat_shiftLeft_one (r : Byte) : (r <<< 1).toNat = 2 * r.toNat % 256 := by
  rw [BitVec.toNat_shiftLeft, Nat.shiftLeft_eq, Nat.mul_comm]

theorem eq_zero_of_crcBit_eq_zero {poly r : Byte} (hp : poly.getLsbD 0 = true) (h : crcBit poly r = 0) : r = 0 := by
  have htop : r.getLsbD 7 = false := by
    rw [← crcBit_getLsbD_zero hp, h]
    rfl
  have hsmall : ¬ 128 ≤ r.toNat := (getLsbD_seven_iff r).not.mp (Bool.eq_false_iff.mp htop)
  have hdouble : 2 * r.toNat % 256 = 0 := by
    rw [← toNat_shiftLeft_one, ← crcBit_of_clear htop, h]
    rfl
  apply BitVec.eq_of_toNat_eq
  show r.toNat = 0
  omega

/-- By linearity it is enough that only the zero register steps to zero. -/
theorem crcBit_injective {poly : Byte} (hp : poly.getLsbD 0 = true) : Function.Injective (crcBit poly) :=
  fun x y h => BitVec.xor_eq_zero_iff.mp
    (eq_zero_of_crcBit_eq_zero hp ((crcBit_xor poly x y).trans (BitVec.xor_eq_zero_iff.mpr h)))

/-- The bit step in numbers: doubling modulo 256, and POLY added in where bit 7 was set (R71). -/
theorem crcBit_eq_ofNat (poly r : Byte) : crcBit poly r = BitVec.ofNat 8
    (if 128 ≤ r.toNat then Nat.xor (2 * r.toNat % 256) poly.toNat else 2 * r.toNat) := by
  apply BitVec.eq_of_toNat_eq
  cases h : r.getLsbD 7 with
  | true =>
    have hxor : (r <<< 1 ^^^ poly).toNat = Nat.xor (2 * r.toNat % 256) poly.toNat := by
      rw [← toNat_shiftLeft_one]
      exact BitVec.toNat_xor ..
    rw [crcBit_of_set h, if_pos ((getLsbD_seven_iff r).mp h), BitVec.toNat_ofNat, ← hxor,
      Nat.mod_eq_of_lt (BitVec.isLt _)]
  | false =>
    rw [crcBit_of_clear h, if_neg ((getLsbD_seven_iff r).not.mp (Bool.eq_false_iff.mp h)), BitVec.toNat_ofNat,
      toNat_shiftLeft_one]

/-! ## Eight bit steps -/

theorem crcBit_iterate_xor (poly : Byte) (n : Nat) (x y : Byte) :
    (crcBit poly)^[n] (x ^^^ y) = (crcBit poly)^[n] x ^^^ (crcBit poly)^[n] y := by
  induction n generalizing x y with
  | zero => rfl
  | succ n ih => rw [Function.iterate_succ_apply, crcBit_xor, ih]; rfl

theorem crcBit_iterate_eq_zero_iff {poly : Byte} (hp : poly.getLsbD 0 = true) (n : Nat) (r : Byte) :
    (crcBit poly)^[n] r = 0 ↔ r = 0 :=
  ((crcBit_injective hp).iterate n).eq_iff' (Function.iterate_fixed (crcBit_zero poly) n)

/-! ## The reflection -/

theorem crcReflected_none {cfg : Params} (h : cfg.crcReflect = .none) (b : Byte) : crcReflected cfg b = b := by
  simp only [crcReflected, h]

theorem crcReflected_reversed {cfg : Params} (h : cfg.crcReflect = .reversed) (b : Byte) :
    crcReflected cfg b = b.reverse := by
  simp only [crcReflected, h]

theorem reverse_xor (x y : Byte) : (x ^^^ y).reverse = x.reverse ^^^ y.reverse := by
  ext i hi
  simp only [BitVec.getElem_xor, BitVec.getElem_reverse, BitVec.getMsbD_xor]

theorem crcReflected_xor (cfg : Params) (x y : Byte) :
    crcReflected cfg (x ^^^ y) = crcReflected cfg x ^^^ crcReflected cfg y := by
  cases h : cfg.crcReflect with
  | none => simp only [crcReflected_none h]
  | reversed => simp only [crcReflected_reversed h, reverse_xor]

theorem crcReflected_involutive (cfg : Params) : Function.Involutive (crcReflected cfg) := by
  intro b
  cases h : cfg.crcReflect with
  | none => simp only [crcReflected_none h]
  | reversed => simp only [crcReflected_reversed h, BitVec.reverse_reverse_eq]

theorem crcReflected_zero (cfg : Params) : crcReflected cfg 0 = 0 := by
  cases h : cfg.crcReflect with
  | none => rw [crcReflected_none h]
  | reversed => rw [crcReflected_reversed h]; rfl

theorem crcReflected_eq_zero_iff (cfg : Params) (b : Byte) : crcReflected cfg b = 0 ↔ b = 0 :=
  (crcReflected_involutive cfg).injective.eq_iff' (crcReflected_zero cfg)

/-! ## One byte -/

theorem crcByte_xor (cfg : Params) (r r' b b' : Byte) :
    crcByte cfg (r ^^^ r') (b ^^^ b') = crcByte cfg r b ^^^ crcByte cfg r' b' := by
  have hregroup : r ^^^ r' ^^^ (crcReflected cfg b ^^^ crcReflected cfg b') =
      (r ^^^ crcReflected cfg b) ^^^ (r' ^^^ crcReflected cfg b') := by ac_rfl
  rw [crcByte, crcReflected_xor, hregroup, crcBit_iterate_xor]
  rfl

/-- A byte leaves the zero register exactly where it equals the register it is absorbed into. -/
theorem crcByte_eq_zero_iff {cfg : Params} (hp : cfg.poly.getLsbD 0 = true) (r b : Byte) :
    crcByte cfg r b = 0 ↔ r = crcReflected cfg b :=
  (crcBit_iterate_eq_zero_iff hp 8 _).trans BitVec.xor_eq_zero_iff

theorem crcByte_injective_register {cfg : Params} (hp : cfg.poly.getLsbD 0 = true) (b : Byte) :
    Function.Injective (crcByte cfg · b) :=
  fun _ _ h => (BitVec.xor_left_inj _).mp ((crcBit_injective hp).iterate 8 h)

theorem crcByte_injective_byte {cfg : Params} (hp : cfg.poly.getLsbD 0 = true) (r : Byte) :
    Function.Injective (crcByte cfg r) :=
  fun _ _ h => (crcReflected_involutive cfg).injective
    ((BitVec.xor_right_inj r).mp ((crcBit_injective hp).iterate 8 h))

/-! ## A sequence -/

theorem foldl_crcByte_zipWith_xor (cfg : Params) {a b : List Byte} (hlen : a.length = b.length) (r r' : Byte) :
    (List.zipWith (· ^^^ ·) a b).foldl (crcByte cfg) (r ^^^ r') =
      a.foldl (crcByte cfg) r ^^^ b.foldl (crcByte cfg) r' := by
  induction a generalizing b r r' with
  | nil =>
    obtain rfl := List.length_eq_zero_iff.mp hlen.symm
    rfl
  | cons x a ih =>
    cases b with
    | nil => cases hlen
    | cons y b =>
      rw [List.zipWith_cons_cons, List.foldl_cons, crcByte_xor]
      exact ih (Nat.succ.inj hlen) _ _

theorem foldl_crcByte_injective {cfg : Params} (hp : cfg.poly.getLsbD 0 = true) (data : List Byte) :
    Function.Injective (data.foldl (crcByte cfg)) := by
  induction data with
  | nil => exact Function.injective_id
  | cons b data ih => exact ih.comp (crcByte_injective_register hp b)

theorem crcRegister_nil (cfg : Params) : crcRegister cfg [] = cfg.crcInit := rfl

theorem crcRegister_append (cfg : Params) (front back : List Byte) :
    crcRegister cfg (front ++ back) = back.foldl (crcByte cfg) (crcRegister cfg front) := List.foldl_append

theorem crcRegister_concat (cfg : Params) (data : List Byte) (b : Byte) :
    crcRegister cfg (data ++ [b]) = crcByte cfg (crcRegister cfg data) b := crcRegister_append cfg data [b]

theorem crc8_of_noXorOut {cfg : Params} (h : cfg.crcXorOut = 0) (data : List Byte) :
    crc8 cfg data = crcReflected cfg (crcRegister cfg data) := by
  rw [crc8, h]
  exact BitVec.xor_zero

/-- Sequences have the same CRC exactly where they leave the same register. -/
theorem crc8_eq_iff (cfg : Params) (a b : List Byte) : crc8 cfg a = crc8 cfg b ↔ crcRegister cfg a = crcRegister cfg b :=
  (BitVec.xor_left_inj _).trans (crcReflected_involutive cfg).injective.eq_iff

/-- Settles O4: two registers that start from zero are absorbed side by side. -/
theorem crcIsLinear : Obligations.CrcIsLinear := by
  intro cfg a b hinit hout hlen
  have hregister : crcRegister cfg (List.zipWith (· ^^^ ·) a b) = crcRegister cfg a ^^^ crcRegister cfg b := by
    rw [crcRegister, crcRegister, crcRegister, hinit]
    exact foldl_crcByte_zipWith_xor cfg hlen 0 0
  simp only [crc8_of_noXorOut hout, hregister, crcReflected_xor]

/-- Settles O5: the last byte leaves zero exactly where it equals the register before it, up to reflection. -/
theorem crcResidueIsZeroExactly : Obligations.CrcResidueIsZeroExactly := by
  intro cfg data b hout hp
  calc crc8 cfg (data ++ [b]) = 0
    _ ↔ crcByte cfg (crcRegister cfg data) b = 0 := by
      rw [crc8_of_noXorOut hout, crcReflected_eq_zero_iff, crcRegister_concat]
    _ ↔ crcRegister cfg data = crcReflected cfg b := crcByte_eq_zero_iff hp _ _
    _ ↔ b = crc8 cfg data := by
      rw [crc8_of_noXorOut hout, eq_comm, (crcReflected_involutive cfg).eq_iff]

/-- Settles O6: the registers differ after the changed byte, and no byte behind it makes them equal again. -/
theorem crcSeesEveryByteChange : Obligations.CrcSeesEveryByteChange := by
  intro cfg front back x y hp hne h
  have hregister := (crc8_eq_iff cfg _ _).mp h
  rw [crcRegister_append, crcRegister_append, List.foldl_cons, List.foldl_cons] at hregister
  exact hne (crcByte_injective_byte hp _ (foldl_crcByte_injective hp back hregister))

/-! ## The operations of the unit -/

/-- Settles O1: the bit step in numbers is the operation's result. -/
theorem crcBitShiftsAndXors : Obligations.CrcBitShiftsAndXors := by
  intro r s hl
  refine ⟨⟨[r], fun _ => rfl⟩, ?_⟩
  rw [exec_crc8Bit hl, crcBit_eq_ofNat, answer_eq]

/-- Settles O2: the eight steps are the iterate written out. -/
theorem crcByteXorsThenEightBits : Obligations.CrcByteXorsThenEightBits := by
  rintro r b _ s rfl hl
  exact ⟨⟨[r, b], fun _ => rfl⟩, exec_crc8Byte hl r b, fun h => crcReflected_none h b⟩

/-- Settles O3: the register is absorbed from the front, so the last byte comes last. -/
theorem crcBlockAbsorbsInOrder : Obligations.CrcBlockAbsorbsInOrder :=
  ⟨fun data _ hl => ⟨⟨data, fun _ => rfl⟩, exec_crc8Block hl data⟩, fun cfg =>
    ⟨crcRegister_nil cfg, crcRegister_concat cfg, fun hout href data =>
      (crc8_of_noXorOut hout data).trans (crcReflected_none href _)⟩⟩

/-- Settles O7: with `L` in range and the window whole no stop applies, and the read answers. -/
theorem crcVerifyComparesTheSpan : Obligations.CrcVerifyComparesTheSpan := by
  intro s bytes L hl hwf hc hmin hmax hwindow
  obtain ⟨hfill, hbuf⟩ := hc
  have hrange : ¬ lengthOk s.cfg L = false := by
    rw [lengthOk_eq_false_iff]
    omega
  have hwhole : ¬ s.fill < L + s.cfg.frameOverhead := by
    rw [(Params.relations hwf).overhead]
    omega
  refine ⟨⟨[BitVec.ofNat 8 L], fun _ => rfl⟩, ?_⟩
  rw [exec_crc8Verify hl, if_neg hrange, if_neg hwhole, Holds.crcVerify s.cfg hbuf hwindow,
    answerRead_some]

end Sys2Proof.Machine
end

section
/-! Unit PARSE: on a buffer of known content no stop of the five operations applies, and each answers what its test or
its fields say of the byte sequence (R64, R85 to R89). -/

namespace Sys2Proof.Machine

/-! ## The operations where no stop applies -/

section
variable {s : State} (h : receiverLive s = true)
include h

theorem exec_parseHead_of_read {b : Byte} (hfill : 1 ≤ s.fill) (hb : s.buf.read 0 = some b) :
    exec .parseHead s = .next { s with
      result := if b = s.cfg.head then .pass else .syncError .head s.cfg.scanStartHead
      cause := none
      wakes := 0 } := by
  rw [exec_parseHead h, if_neg (Nat.not_lt.mpr hfill), hb, answerRead_some, testResult_head]

theorem exec_parseLen_of_read {b : Byte} (hfill : 3 ≤ s.fill) (hb : s.buf.read 2 = some b) :
    exec .parseLen s = .next { s with
      result :=
        if b.toNat < s.cfg.lMin ∨ s.cfg.lMax < b.toNat then .syncError .len s.cfg.scanStartLen else .length b.toNat
      cause := none
      wakes := 0 } := by
  rw [exec_parseLen h, if_neg (Nat.not_lt.mpr hfill), hb, answerRead_some, testResult_len]

theorem exec_parseBounds_of_lengthOk {L : Nat} (hL : lengthOk s.cfg L = true) :
    exec (.parseBounds L) s = .next { s with
      result := if s.fill < L + s.cfg.frameOverhead then .outcome .needMoreData else .pass
      cause := none
      wakes := 0 } := by
  rw [exec_parseBounds h, if_neg ((Bool.not_eq_false _).mpr hL), answer_eq, testResult_bounds]

theorem exec_parseFields_of_readFields {L : Nat} {f : FrameFields} (hL : lengthOk s.cfg L = true)
    (hwindow : L + s.cfg.frameOverhead ≤ s.fill) (hf : readFields s.buf L = some f) :
    exec (.parseFields L) s = .next { s with result := .fields f, cause := none, wakes := 0 } := by
  rw [exec_parseFields h, if_neg ((Bool.not_eq_false _).mpr hL), if_neg (Nat.not_lt.mpr hwindow), hf, answerRead_some]

end

/-- MIN_PROBE bytes hold all that HEAD and LEN are read from (R6). -/
theorem Contents.three_le_fill {s : State} {bytes : List Byte} (hc : Contents s bytes) (hp : s.cfg.Relations)
    (hprobe : s.cfg.minProbe ≤ bytes.length) : 3 ≤ s.fill := by
  rw [hp.probe, ← hc.1] at hprobe
  exact (Nat.le_add_left 3 _).trans hprobe

/-! ## The obligations -/

/-- Settles O8: the operation is the test, whose answer does not look at the flag. -/
theorem probeNeedsSixBytes : Obligations.ProbeNeedsSixBytes := by
  refine ⟨rfl, fun s hl => ⟨⟨[], fun _ => rfl⟩, ?_⟩⟩
  rw [exec_parseProbe hl, testResult_probe, answer_eq]

/-- Settles O9: `buf[0]` is the first byte of the content, and the test compares all of it. -/
theorem headTestWantsTheSentinel : Obligations.HeadTestWantsTheSentinel := by
  refine ⟨⟨rfl, rfl⟩, fun s bytes hl hwf hc hprobe => ⟨⟨[], fun _ => rfl⟩, ?_⟩⟩
  have hfill := hc.three_le_fill (Params.relations hwf) hprobe
  obtain ⟨hlen, hbuf⟩ := hc
  have hfirst : bytes[0]? = some bytes[0] := List.getElem?_eq_getElem (by omega)
  rw [exec_parseHead_of_read hl (by omega) ((hbuf 0).trans hfirst), hfirst]
  simp only [Option.some.injEq]

/-- Settles O10: `buf[2]` is the third byte of the content, and no other byte is read. -/
theorem lengthTestRejectsBelowThree : Obligations.LengthTestRejectsBelowThree :=
  ⟨⟨rfl, rfl⟩, fun _ _ _ hl hwf hc hprobe hb => ⟨⟨[], fun _ => rfl⟩,
    exec_parseLen_of_read hl (hc.three_le_fill (Params.relations hwf) hprobe) ((hc.2 2).trans hb)⟩⟩

/-- Settles O11: with `L` in range the operation is the test, and FRAME_OVERHEAD is 3 (R6). -/
theorem boundsTestWaitsForTheWindow : Obligations.BoundsTestWaitsForTheWindow := by
  intro s L hl hwf hmin hmax
  refine ⟨⟨[BitVec.ofNat 8 L], fun _ => rfl⟩, ?_⟩
  rw [exec_parseBounds_of_lengthOk hl ((lengthOk_iff s.cfg L).mpr ⟨hmin, hmax⟩), (Params.relations hwf).overhead]

/-- Settles O12: the fields of a whole window are read by their offsets. -/
theorem fieldsStandAtTheirOffsets : Obligations.FieldsStandAtTheirOffsets := by
  intro s bytes L hl hwf hc hmin hmax hwindow
  have hp := Params.relations hwf
  obtain ⟨b0, b1, b2, c, h0, h1, h2, hcrc, hfields⟩ := hc.holds.readFields (hp.lMin_pos.trans hmin) hwindow
  refine ⟨⟨[BitVec.ofNat 8 L], fun _ => rfl⟩, b0, b1, b2, c, h0, h1, h2, hcrc,
    exec_parseFields_of_readFields hl ((lengthOk_iff s.cfg L).mpr ⟨hmin, hmax⟩) ?window hfields⟩
  case window => rwa [hp.overhead, hc.1]

end Sys2Proof.Machine
end

section
/-! Unit SYNC: the gate, the scan and the error path on a buffer of known content (R100 to R104); when CHECK or APPLY
answers a discard, a test has failed and the error path from its scan start has answered (R116, R134), and so every
discard makes progress and leaves a HEAD at the front or nothing (R105 to R107). -/

namespace Sys2Proof

/-- A buffer that is probed is not empty (R6). -/
theorem Params.Relations.minProbe_pos {p : Params} (h : p.Relations) : 1 ≤ p.minProbe := by
  rw [h.probe]
  omega

end Sys2Proof

namespace Sys2Proof.Machine

/-! ## The operations where they are enabled -/

/-- From where the error path may scan (R6, R101). -/
theorem scanStartOk_iff (cfg : Params) (m : Memory) (start : Nat) (cause : SyncCause) :
    scanStartOk cfg m start cause = true ↔
      1 ≤ start ∨ (cause = .head ∧ start = cfg.scanStartHead ∧ m.read 0 ≠ some cfg.head) := by
  simp only [scanStartOk, Bool.or_eq_true, Bool.and_eq_true, decide_eq_true_eq, and_assoc]

section
variable {s : State} (h : receiverLive s = true)
include h

theorem exec_syncScan_of_scan {start : Nat} {r : ScanResult} (hr : scan s.cfg.head s.buf start s.fill = some r) :
    exec (.syncScan start) s = .next { s with result := scanAnswer r, cause := none, wakes := 0 } := by
  rw [exec_syncScan h, hr, answerRead_some]

/-- SYNC.RESOLVE completes exactly where its operand and the number of bytes are in range, and leaves the verdict of the
error path (R104). -/
theorem exec_syncResolve_next_iff {start : Nat} {cause : SyncCause} {t : State} :
    exec (.syncResolve start cause) s = .next t ↔
      scanStartOk s.cfg s.buf start cause = true ∧ s.cfg.minProbe ≤ s.fill ∧
        ∃ v : Verdict, raiseSync s.cfg.head s.buf s.fill start cause = some v ∧ t = s.clearOutputs.withVerdict v := by
  rw [exec_syncResolve h]
  by_cases hstop : scanStartOk s.cfg s.buf start cause = false ∨ s.fill < s.cfg.minProbe
  · rw [if_pos hstop]
    refine ⟨nofun, fun ⟨hstart, hprobe, _⟩ => ?_⟩
    rcases hstop with hbad | hshort
    · exact absurd (hstart.symm.trans hbad) nofun
    · exact absurd hshort (Nat.not_lt.mpr hprobe)
  · obtain ⟨hstart, hprobe⟩ := not_or.mp hstop
    rw [if_neg hstop]
    cases raiseSync s.cfg.head s.buf s.fill start cause with
    | none => exact ⟨nofun, nofun⟩
    | some v => simpa [Nat.not_lt.mp hprobe, hstart] using eq_comm

/-- CHECK completes exactly with the verdict of its six tests (R116, R117). -/
theorem exec_check_next_iff {t : State} :
    exec .check s = .next t ↔
      ∃ v : Verdict, checkFrame s.cfg s.resync s.buf s.fill = some v ∧ t = s.clearOutputs.withVerdict v := by
  rw [exec_check h]
  cases checkFrame s.cfg s.resync s.buf s.fill with
  | none => exact ⟨nofun, nofun⟩
  | some v => simpa using eq_comm

end

/-! ## Where a discard comes from -/

section
variable {s : State} {bytes : List Byte} (h : Contents s bytes) (hp : s.cfg.Relations)
include h hp

/-- CHECK discards only where a test fails, and then as the error path from that test's scan start does (R116). -/
theorem Contents.fails_of_checkFrame {v : Verdict} {m : Nat}
    (hv : checkFrame s.cfg s.resync s.buf s.fill = some v) (hm : v.outcome = .discardBytes m) :
    ∃ (cause : SyncCause) (start : Nat), FailsWith s.cfg s.resync bytes cause start ∧
      Resolves s.cfg.head bytes start (.discardBytes m) v.resync := by
  rcases codec_cases hp s.resync bytes with hw | ⟨hr, L, hf⟩ | ⟨cause, start, hf⟩
  · obtain rfl := Option.some.inj (hv.symm.trans (h.checkFrame_waits hp hw))
    cases hm
  · obtain rfl := Option.some.inj (hv.symm.trans (h.checkFrame_accepts hp hr hf))
    cases hm
  · obtain ⟨o, flag, he, hres⟩ := h.checkFrame_fails hp hf
    obtain rfl := Option.some.inj (hv.symm.trans he)
    exact ⟨cause, start, hf, hm ▸ hres⟩

/-- APPLY discards only where a test of its CHECK fails, and what is left is what stood behind the discarded bytes
(R134). -/
theorem Contents.fails_of_applyOnce {t : State} {m : Nat} (ha : applyOnce s = .ok (.discardBytes m, t)) :
    ∃ (cause : SyncCause) (start : Nat), FailsWith s.cfg s.resync bytes cause start ∧
      Resolves s.cfg.head bytes start (.discardBytes m) t.resync ∧ Contents t (bytes.drop m) := by
  rcases codec_cases hp s.resync bytes with hw | ⟨hr, L, hf⟩ | ⟨cause, start, hf⟩
  · cases ha.symm.trans (applyOnce_waits h hp hw)
  · obtain ⟨_, _, -, -, -, he⟩ := applyOnce_accepts h hp hr hf
    cases ha.symm.trans he
  · obtain ⟨k, flag, buf, hres, -, -, hbuf, -, he⟩ := applyOnce_fails h hp hf
    cases ha.symm.trans he
    exact ⟨cause, start, hf, hres, (List.length_drop ..).symm, hbuf⟩

end

/-! ## How much a discard takes, and what it leaves -/

/-- The bytes a failed test discards: at least one, at most all (R105). -/
theorem FailsWith.discard_range {cfg : Params} (hp : cfg.Relations) {resync flag : Bool} {bytes : List Byte}
    {cause : SyncCause} {start m : Nat} (hf : FailsWith cfg resync bytes cause start)
    (hres : Resolves cfg.head bytes start (.discardBytes m) flag) : 1 ≤ m ∧ m ≤ bytes.length := by
  have hlen : 1 ≤ bytes.length := hp.minProbe_pos.trans hf.probe_le
  obtain ⟨k, hk, hrange⟩ := hres.range (hf.start_ok hp) hlen
  rwa [CheckOutcome.discardBytes.inj hk]

/-- A discard up to a HEAD leaves that HEAD in front; the other discard leaves nothing (R104, R107). -/
theorem Resolves.front {head : Byte} {bytes : List Byte} {start m : Nat} {flag : Bool}
    (h : Resolves head bytes start (.discardBytes m) flag) :
    (flag = false ∧ m < bytes.length ∧ (bytes.drop m)[0]? = some head) ∨ (flag = true ∧ m = bytes.length) := by
  rcases h with ⟨k, hk, ho, hflag⟩ | ⟨-, ho, hflag⟩ <;> obtain rfl := CheckOutcome.discardBytes.inj ho
  · have hlt := hk.lt
    obtain ⟨-, hhead, -⟩ := hk
    exact .inl ⟨hflag, hlt, List.getElem?_drop.trans hhead⟩
  · exact .inr ⟨hflag, rfl⟩

/-! ## The obligations -/

/-- Settles O13: the operation is the test of the flag. -/
theorem gateFollowsTheFlag : Obligations.GateFollowsTheFlag := by
  refine ⟨rfl, fun s hl _ => ⟨⟨[], fun _ => rfl⟩, ?_⟩⟩
  rw [exec_syncGate hl, testResult_gate, answer_eq]

/-- Settles O14: the induction over the scanned bytes is `Holds.scanFrom`. -/
theorem scanFindsTheLeastHead : Obligations.ScanFindsTheLeastHead := by
  refine ⟨rfl, fun s bytes start hl hc => ⟨⟨halfBytes start, fun _ => rfl⟩, ?_⟩⟩
  rcases hc.scan start with ⟨k, hscan, hk⟩ | ⟨hscan, hno⟩
  · exact ⟨.found k, exec_syncScan_of_scan hl hscan, .inl ⟨k, hk, rfl⟩⟩
  · exact ⟨.notFound, exec_syncScan_of_scan hl hscan, .inr ⟨hno, rfl⟩⟩

/-- Settles O15: the premises are those under which the operation completes. -/
theorem errorPathWritesFlagAndDiscards : Obligations.ErrorPathWritesFlagAndDiscards := by
  intro s bytes start cause hl hc hprobe hstart
  obtain ⟨o, flag, hraise, hres⟩ := hc.raiseSync start cause
  obtain ⟨hlen, hbuf⟩ := hc
  rw [← hbuf] at hstart
  refine ⟨⟨_, fun _ => rfl⟩, o, flag, hres, ?_⟩
  exact (exec_syncResolve_next_iff hl).mpr
    ⟨(scanStartOk_iff ..).mpr hstart, hlen ▸ hprobe, _, hraise, rfl⟩

/-- Settles O16: CHECK and APPLY discard only where a test fails, and no scan, that of SYNC.RESOLVE included, may find a
HEAD at index 0. -/
theorem discardsAreNeverEmpty : Obligations.DiscardsAreNeverEmpty := by
  intro s t i m hi hop h hresult
  have hp := hi.relations
  obtain ⟨-, ⟨-, -, bytes, hc⟩, -, -⟩ := hi
  rw [hc.1]
  rcases hop with rfl | rfl | ⟨start, cause, rfl⟩
  case inl =>
    obtain ⟨v, hv, rfl⟩ := (exec_check_next_iff (receiverLive_of_exec rfl h)).mp h
    obtain ⟨cause, start, hf, hres⟩ := hc.fails_of_checkFrame hp hv (Result.outcome.inj hresult)
    exact hf.discard_range hp hres
  case inr.inl =>
    obtain ⟨o, u, ha, houtcome, rfl⟩ := applyOnce_of_exec_apply (receiverLive_of_exec rfl h) h
    obtain rfl := Result.outcome.inj (houtcome.symm.trans hresult)
    obtain ⟨cause, start, hf, hres, -⟩ := Contents.fails_of_applyOnce (s := s.clearOutputs) hc hp ha
    exact hf.discard_range hp hres
  case inr.inr =>
    obtain ⟨hstart, hprobe, v, hv, rfl⟩ := (exec_syncResolve_next_iff (receiverLive_of_exec rfl h)).mp h
    obtain ⟨o, flag, hraise, hres⟩ := hc.raiseSync start cause
    obtain rfl := Option.some.inj (hv.symm.trans hraise)
    have hstart' : 1 ≤ start ∨ bytes[0]? ≠ some s.cfg.head :=
      ((scanStartOk_iff ..).mp hstart).imp_right fun ⟨_, _, hne⟩ => hc.2 0 ▸ hne
    obtain ⟨k, rfl, hrange⟩ := hres.range hstart' (hp.minProbe_pos.trans (hc.1 ▸ hprobe))
    cases hresult
    exact hrange

/-- Settles O20: with the flag set the gate is the test that fails. -/
theorem setFlagIsSticky : Obligations.SetFlagIsSticky := by
  intro s bytes hl hwf hc hflag hprobe
  have hp := Params.relations hwf
  have hf : FailsWith s.cfg s.resync bytes .resync s.cfg.scanStartResync := ⟨hprobe, hflag, rfl⟩
  obtain ⟨o, flag, hv, hres⟩ := hc.checkFrame_fails hp hf
  have hexec := (exec_check_next_iff hl).mpr ⟨_, hv, rfl⟩
  obtain ⟨m, rfl, hpos, -⟩ := hres.range (hf.start_ok hp) (hp.minProbe_pos.trans hprobe)
  refine ⟨m, flag, hpos, hexec, ?_⟩
  rcases hres with ⟨k, hk, hm, hclear⟩ | ⟨hno, hm, hset⟩ <;> obtain rfl := CheckOutcome.discardBytes.inj hm
  · exact .inl ⟨hclear, hk⟩
  · exact .inr ⟨hset, rfl, hno⟩

/-- Settles O29: the bytes that are left begin with the HEAD the error path found, if it found one. -/
theorem discardLeavesHeadOrNothing : Obligations.DiscardLeavesHeadOrNothing := by
  intro s t m hi h hresult
  have hp := hi.relations
  obtain ⟨-, ⟨-, -, bytes, hc⟩, -, -⟩ := hi
  obtain ⟨o, u, ha, houtcome, rfl⟩ := applyOnce_of_exec_apply (receiverLive_of_exec rfl h) h
  obtain rfl := Result.outcome.inj (houtcome.symm.trans hresult)
  obtain ⟨cause, start, -, hres, hlen, hbuf⟩ := Contents.fails_of_applyOnce (s := s.clearOutputs) hc hp ha
  rw [List.length_drop] at hlen
  rw [hc.1]
  rcases hres.front with ⟨hflag, hlt, hhead⟩ | ⟨hflag, rfl⟩
  · exact .inl ⟨hflag, hlen, hlen ▸ Nat.sub_pos_of_lt hlt, (hbuf 0).trans hhead⟩
  · exact .inr ⟨hflag, rfl, hlen.trans (Nat.sub_self _)⟩

end Sys2Proof.Machine
end

section
/-! CHECK, said once: what it answers is a relation between the flag, the bytes and the verdict, which holds of exactly
one verdict (R116 to R118); what more bytes behind and what one changed byte do to that relation (R120, R121); and the
receive operations complete, since CHECK always answers and what fits before a DRAIN fits after it (R131 to R136). -/

namespace Sys2Proof.Machine

/-! ## What CHECK answers -/

/-- What CHECK answers on a flag and a byte sequence: the three ways of R116. -/
inductive Answers (cfg : Params) (resync : Bool) (bytes : List Byte) : Verdict → Prop
  | waits (hw : Waits cfg resync bytes) :
    Answers cfg resync bytes { outcome := .needMoreData, resync := resync, cause := none }
  | accepts {L : Nat} (hr : resync = false) (hf : FrameAtFront cfg bytes L) :
    Answers cfg resync bytes { outcome := .frameAccepted (L + 3), resync := resync, cause := none }
  | fails {cause : SyncCause} {start : Nat} {o : CheckOutcome} {flag : Bool}
    (hf : FailsWith cfg resync bytes cause start) (hres : Resolves cfg.head bytes start o flag) :
    Answers cfg resync bytes { outcome := o, resync := flag, cause := some cause }

/-- The error path always discards (R104). -/
theorem Resolves.discards {head : Byte} {bytes : List Byte} {start : Nat} {o : CheckOutcome} {flag : Bool}
    (h : Resolves head bytes start o flag) : ∃ m : Nat, o = .discardBytes m := by
  rcases h with ⟨k, -, ho, -⟩ | ⟨-, ho, -⟩
  · exact ⟨k, ho⟩
  · exact ⟨_, ho⟩

/-- Only a frame at the front is accepted, and the flag was clear and stays so (R117, R121 item 1). -/
theorem Answers.of_accepted {cfg : Params} {resync : Bool} {bytes : List Byte} {v : Verdict} {n : Nat}
    (h : Answers cfg resync bytes v) (ho : v.outcome = .frameAccepted n) :
    resync = false ∧ (∃ L : Nat, n = L + 3 ∧ FrameAtFront cfg bytes L) ∧
      v = { outcome := .frameAccepted n, resync := resync, cause := none } := by
  cases h with
  | waits => cases ho
  | accepts hr hf =>
    cases ho
    exact ⟨hr, ⟨_, rfl, hf⟩, rfl⟩
  | fails hf hres =>
    obtain ⟨m, rfl⟩ := hres.discards
    cases ho

section
variable {s : State} {bytes : List Byte} (hc : Contents s bytes) (hp : s.cfg.Relations)
include hc hp

/-- CHECK always answers (R118). -/
theorem Contents.exists_answer :
    ∃ v : Verdict, checkFrame s.cfg s.resync s.buf s.fill = some v ∧ Answers s.cfg s.resync bytes v := by
  rcases codec_cases hp s.resync bytes with hw | ⟨hr, L, hf⟩ | ⟨cause, start, hf⟩
  · exact ⟨_, hc.checkFrame_waits hp hw, .waits hw⟩
  · exact ⟨_, hc.checkFrame_accepts hp hr hf, .accepts hr hf⟩
  · obtain ⟨o, flag, hv, hres⟩ := hc.checkFrame_fails hp hf
    exact ⟨_, hv, .fails hf hres⟩

/-- The six tests compute that answer. -/
theorem Contents.checkFrame_iff {v : Verdict} :
    checkFrame s.cfg s.resync s.buf s.fill = some v ↔ Answers s.cfg s.resync bytes v := by
  constructor
  · intro hv
    obtain ⟨w, hw, ha⟩ := hc.exists_answer hp
    obtain rfl := Option.some.inj (hv.symm.trans hw)
    exact ha
  · intro ha
    cases ha with
    | waits hw => exact hc.checkFrame_waits hp hw
    | accepts hr hf => exact hc.checkFrame_accepts hp hr hf
    | fails hf hres =>
      obtain ⟨o, flag, hv, hres'⟩ := hc.checkFrame_fails hp hf
      obtain ⟨rfl, rfl⟩ := hres.unique hres'
      exact hv

variable (hl : receiverLive s = true)
include hl

theorem exec_check_iff_answers {t : State} :
    exec .check s = .next t ↔ ∃ v : Verdict, Answers s.cfg s.resync bytes v ∧ t = s.clearOutputs.withVerdict v := by
  simp only [exec_check_next_iff hl, hc.checkFrame_iff hp]

theorem exec_check_of_answers {v : Verdict} (ha : Answers s.cfg s.resync bytes v) :
    exec .check s = .next (s.clearOutputs.withVerdict v) :=
  (exec_check_iff_answers hc hp hl).mpr ⟨v, ha, rfl⟩

/-- CHECK answers nothing else. -/
theorem next_eq_of_answers {t : State} {v : Verdict} (h : exec .check s = .next t)
    (ha : Answers s.cfg s.resync bytes v) : t = s.clearOutputs.withVerdict v :=
  Host.Outcome.next.inj (h.symm.trans (exec_check_of_answers hc hp hl ha))

/-- A failed test: a discard with that test's cause (R104, R116). -/
theorem discards_of_fails {t : State} {cause : SyncCause} {start : Nat} (h : exec .check s = .next t)
    (hf : FailsWith s.cfg s.resync bytes cause start) :
    t.cause = some cause ∧ ∃ m : Nat, t.result = .outcome (.discardBytes m) := by
  obtain ⟨o, flag, -, hres⟩ := hc.raiseSync start cause
  obtain ⟨m, rfl⟩ := hres.discards
  obtain rfl := next_eq_of_answers hc hp hl h (.fails hf hres)
  exact ⟨rfl, m, rfl⟩

end

/-- Settles O17: each way of R116 is an answer of CHECK, and one of them always applies. -/
theorem checkRunsItsSixSteps : Obligations.CheckRunsItsSixSteps := by
  refine ⟨⟨rfl, rfl, rfl, rfl, rfl, rfl, rfl, rfl⟩, fun s bytes hl hwf hc => ?_⟩
  have hp := Params.relations hwf
  refine ⟨⟨[], fun _ => rfl⟩, fun hw => exec_check_of_answers hc hp hl (.waits hw), fun cause start hf => ?fails,
    fun L hr hf => exec_check_of_answers hc hp hl (.accepts hr hf), ?total⟩
  case fails =>
    obtain ⟨o, flag, -, hres⟩ := hc.raiseSync start cause
    exact ⟨o, flag, hres, exec_check_of_answers hc hp hl (.fails hf hres)⟩
  case total => exact (codec_cases hp s.resync bytes).imp_right Or.symm

/-- Settles O18: an accepting answer is the one of a frame at the front. -/
theorem checkAcceptsExactlyFrames : Obligations.CheckAcceptsExactlyFrames := by
  intro s bytes n hl hwf hc
  have hp := Params.relations hwf
  refine ⟨⟨fun h => ?front, ?accepted⟩, fun t h hresult => ?unchanged⟩
  case front =>
    obtain ⟨v, ha, ht⟩ := (exec_check_iff_answers hc hp hl).mp h
    have ho : .outcome (.frameAccepted n) = Result.outcome v.outcome := congrArg State.result ht
    obtain ⟨hr, hframe, -⟩ := ha.of_accepted (Result.outcome.inj ho).symm
    exact ⟨hr, hframe⟩
  case accepted =>
    rintro ⟨hr, L, rfl, hf⟩
    exact exec_check_of_answers hc hp hl (.accepts hr hf)
  case unchanged =>
    obtain ⟨v, ha, rfl⟩ := (exec_check_iff_answers hc hp hl).mp h
    obtain ⟨-, -, rfl⟩ := ha.of_accepted (Result.outcome.inj hresult)
    rfl

/-- Settles O19: both states have the answer of the same flag and bytes. -/
theorem checkIsTotalAndDependsOnTheBytesAlone : Obligations.CheckIsTotalAndDependsOnTheBytesAlone := by
  intro s s' bytes hl hl' hwf hc hc' hr hcfg
  have hp := Params.relations hwf
  obtain ⟨v, -, ha⟩ := hc.exists_answer hp
  have ha' : Answers s'.cfg s'.resync bytes v := hcfg ▸ hr ▸ ha
  exact ⟨v.outcome, v.resync, v.cause, exec_check_of_answers hc hp hl ha,
    exec_check_of_answers hc' (hcfg ▸ hp) hl' ha'⟩

/-! ## More bytes behind -/

section
variable {cfg : Params} (hp : cfg.Relations) {bytes : List Byte} (more : List Byte)

/-- The span of a whole window (R36). -/
theorem spanOf_append {L : Nat} (h : L + 3 ≤ bytes.length) : spanOf (bytes ++ more) L = spanOf bytes L := by
  have hdrop : L ≤ (bytes.drop 2).length := by
    rw [List.length_drop]
    omega
  rw [spanOf, List.drop_append_of_le_length (by omega), List.take_append_of_le_length hdrop, spanOf]

include hp

theorem LegalHeader.append {L : Nat} (h : LegalHeader cfg bytes L) : LegalHeader cfg (bytes ++ more) L := by
  obtain ⟨hprobe, hhead, hmin, hmax, hlen⟩ := h
  have hlong := hp.probe
  refine ⟨?_, ?_, hmin, hmax, ?_⟩
  · rw [List.length_append]
    omega
  · rw [List.getElem?_append_left (by omega), hhead]
  · rw [List.getElem?_append_left (by omega), hlen]

theorem FrameAtFront.append {L : Nat} (h : FrameAtFront cfg bytes L) : FrameAtFront cfg (bytes ++ more) L := by
  obtain ⟨hheader, hwindow, hcrc⟩ := h
  refine ⟨hheader.append hp more, ?_, ?_⟩
  · rw [List.length_append]
    omega
  · rw [List.getElem?_append_left (by omega), spanOf_append more hwindow, hcrc]

/-- The test that fails reads only bytes that were there (R116). -/
theorem FailsWith.append {resync : Bool} {cause : SyncCause} {start : Nat}
    (h : FailsWith cfg resync bytes cause start) : FailsWith cfg resync (bytes ++ more) cause start := by
  have hprobe : cfg.minProbe ≤ (bytes ++ more).length := h.probe_le.trans (by simp)
  have hlong : 3 ≤ bytes.length := by
    have := h.probe_le
    have := hp.probe
    omega
  cases cause with
  | resync =>
    obtain ⟨-, hr, hstart⟩ := h
    exact ⟨hprobe, hr, hstart⟩
  | head =>
    obtain ⟨-, hr, hhead, hstart⟩ := h
    refine ⟨hprobe, hr, ?_, hstart⟩
    rwa [List.getElem?_append_left (by omega)]
  | len =>
    obtain ⟨-, hr, hhead, ⟨b, hb, hrange⟩, hstart⟩ := h
    refine ⟨hprobe, hr, ?_, ⟨b, ?_, hrange⟩, hstart⟩
    · rwa [List.getElem?_append_left (by omega)]
    · rwa [List.getElem?_append_left (by omega)]
  | crc =>
    obtain ⟨hr, L, hheader, hwindow, hcrc, hstart⟩ := h
    refine ⟨hr, L, hheader.append hp more, ?_, ?_, hstart⟩
    · rw [List.length_append]
      omega
    · rwa [List.getElem?_append_left (by omega), spanOf_append more hwindow]

end

/-- The bytes up to a found HEAD are still the ones the scan reads (R102). -/
theorem FirstHead.append {head : Byte} {bytes : List Byte} {start k : Nat} (h : FirstHead head bytes start k)
    (more : List Byte) : FirstHead head (bytes ++ more) start k := by
  have hlt := h.lt
  obtain ⟨hstart, hhead, hleast⟩ := h
  refine ⟨hstart, ?_, fun j hj hjk => ?_⟩
  · rwa [List.getElem?_append_left hlt]
  · rw [List.getElem?_append_left (hjk.trans hlt)]
    exact hleast j hj hjk

/-- A discard that clears the flag is one up to a found HEAD (R104). -/
theorem Resolves.append {head : Byte} {bytes : List Byte} {start : Nat} {o : CheckOutcome}
    (h : Resolves head bytes start o false) (more : List Byte) : Resolves head (bytes ++ more) start o false := by
  rcases h with ⟨k, hk, ho, hflag⟩ | ⟨-, -, hset⟩
  · exact .inl ⟨k, hk.append more, ho, hflag⟩
  · cases hset

/-- Settles O22: the answer's own conditions hold of the longer sequence. -/
theorem answersAreStableUnderMoreData : Obligations.AnswersAreStableUnderMoreData := by
  intro s s' t bytes more hl hl' hwf hc hc' hr hcfg h hkind
  have hp := Params.relations hwf
  obtain ⟨v, ha, rfl⟩ := (exec_check_iff_answers hc hp hl).mp h
  suffices hlonger : Answers s'.cfg s'.resync (bytes ++ more) v from
    exec_check_of_answers hc' (hcfg ▸ hp) hl' hlonger
  rw [← hcfg, ← hr]
  cases ha with
  | waits =>
    rcases hkind with ⟨m, hm⟩ | ⟨-, k, hk⟩
    · cases hm
    · cases hk
  | accepts hclear hf => exact .accepts hclear (hf.append hp more)
  | fails hf hres =>
    rcases hkind with ⟨m, hm⟩ | ⟨hflag, -⟩
    · obtain ⟨k, rfl⟩ := hres.discards
      cases hm
    · obtain rfl := hflag
      exact .fails (hf.append hp more) (hres.append more)

/-! ## One byte changed -/

/-- One changed byte changes the CRC (R77 item 4). -/
theorem crc8_set_ne {cfg : Params} (hpoly : cfg.poly.getLsbD 0 = true) {data : List Byte} {j : Nat} {v : Byte}
    (hj : j < data.length) (hne : data[j]? ≠ some v) : crc8 cfg (data.set j v) ≠ crc8 cfg data := by
  have hbyte : v ≠ data[j] := fun he => hne (he ▸ List.getElem?_eq_getElem hj)
  have hsplit : data.take j ++ data[j] :: data.drop (j + 1) = data := by simp
  have hchanged := crcSeesEveryByteChange cfg (data.take j) (data.drop (j + 1)) v data[j] hpoly hbyte
  rwa [hsplit, ← List.set_eq_take_cons_drop v hj] at hchanged

section
variable {cfg : Params} {bytes : List Byte} {L i : Nat} {v : Byte}

/-- HEAD and ADDR stand before the span (R36). -/
theorem spanOf_set_before (hi : i < 2) : spanOf (bytes.set i v) L = spanOf bytes L := by
  rw [spanOf, List.drop_set, if_pos hi, spanOf]

theorem spanOf_set (hi : 2 ≤ i) : spanOf (bytes.set i v) L = (spanOf bytes L).set (i - 2) v := by
  rw [spanOf, List.drop_set, if_neg (Nat.not_lt.mpr hi), List.take_set, spanOf]

theorem length_spanOf_le : (spanOf bytes L).length ≤ L := List.length_take_le ..

/-- A changed byte other than HEAD and LEN leaves the header legal. -/
theorem LegalHeader.set (h : LegalHeader cfg bytes L) (h0 : i ≠ 0) (h2 : i ≠ 2) :
    LegalHeader cfg (bytes.set i v) L := by
  obtain ⟨hprobe, hhead, hmin, hmax, hlen⟩ := h
  refine ⟨?_, ?_, hmin, hmax, ?_⟩
  · rwa [List.length_set]
  · rwa [List.getElem?_set_ne h0]
  · rwa [List.getElem?_set_ne h2]

/-- A changed LEN in its range is a legal header of that length. -/
theorem LegalHeader.set_len (hp : cfg.Relations) (h : LegalHeader cfg bytes L) (hmin : cfg.lMin ≤ v.toNat)
    (hmax : v.toNat ≤ cfg.lMax) : LegalHeader cfg (bytes.set 2 v) v.toNat := by
  obtain ⟨hprobe, hhead, -, -, -⟩ := h
  have hlong := hp.probe
  refine ⟨?_, ?_, hmin, hmax, ?_⟩
  · rwa [List.length_set]
  · rwa [List.getElem?_set_ne (by omega)]
  · rw [List.getElem?_set_self (by omega), BitVec.ofNat_toNat, BitVec.setWidth_eq]

/-- A changed PAYLOAD byte changes the CRC and not the CRC8 byte; a changed CRC8 byte is not the CRC (R77 item 4). -/
theorem FrameAtFront.crc_mismatch (h : FrameAtFront cfg bytes L) (hpoly : cfg.poly.getLsbD 0 = true) (hi : 3 ≤ i)
    (hiL : i < L + 3) (hne : bytes[i]? ≠ some v) :
    (bytes.set i v)[L + 2]? ≠ some (crc8 cfg (spanOf (bytes.set i v) L)) := by
  obtain ⟨-, hwindow, hcrc⟩ := h
  rw [spanOf_set (by omega)]
  rcases Nat.lt_succ_iff_lt_or_eq.mp hiL with hpayload | rfl
  · have hspan : i - 2 < (spanOf bytes L).length := by
      rw [spanOf, List.length_take, List.length_drop]
      omega
    have hbyte : (spanOf bytes L)[i - 2]? ≠ some v := by
      rwa [spanOf, List.getElem?_take_of_lt (by omega), List.getElem?_drop, Nat.add_sub_of_le (by omega)]
    rw [List.getElem?_set_ne (by omega), hcrc]
    exact fun he => crc8_set_ne hpoly hspan hbyte (Option.some.inj he).symm
  · have houtside : (spanOf bytes L).length ≤ L + 2 - 2 := length_spanOf_le
    rw [List.getElem?_set_self (by omega), List.set_eq_of_length_le houtside, ← hcrc]
    exact hne.symm

/-- A changed HEAD fails the test of HEAD (R86). -/
theorem FrameAtFront.fails_head (h : FrameAtFront cfg bytes L) (hne : bytes[0]? ≠ some v) :
    FailsWith cfg false (bytes.set 0 v) .head cfg.scanStartHead := by
  obtain ⟨⟨hprobe, hhead, -, -, -⟩, hwindow, -⟩ := h
  refine ⟨?_, rfl, ?_, rfl⟩
  · rwa [List.length_set]
  · rw [List.getElem?_set_self (by omega), ← hhead]
    exact hne.symm

/-- ADDR is in no test and not in the span (R36, R53). -/
theorem FrameAtFront.set_addr (h : FrameAtFront cfg bytes L) :
    FrameAtFront cfg (bytes.set 1 v) L := by
  obtain ⟨hheader, hwindow, hcrc⟩ := h
  refine ⟨hheader.set (by omega) (by omega), ?_, ?_⟩
  · rwa [List.length_set]
  · rwa [List.getElem?_set_ne (by omega), spanOf_set_before (by omega)]

/-- A LEN outside its range fails the test of LEN (R87). -/
theorem FrameAtFront.fails_len (h : FrameAtFront cfg bytes L) (hrange : v.toNat < cfg.lMin ∨ cfg.lMax < v.toNat) :
    FailsWith cfg false (bytes.set 2 v) .len cfg.scanStartLen := by
  obtain ⟨⟨hprobe, hhead, -, -, -⟩, hwindow, -⟩ := h
  refine ⟨?_, rfl, ?_, ⟨v, List.getElem?_set_self (by omega), hrange⟩, rfl⟩
  · rwa [List.length_set]
  · rwa [List.getElem?_set_ne (by omega)]

/-- A longer legal LEN leaves the window incomplete where nothing stands behind the frame (R88). -/
theorem FrameAtFront.waits_len (hp : cfg.Relations) (h : FrameAtFront cfg bytes L) (hend : bytes.length = L + 3)
    (hlong : L < v.toNat) (hmax : v.toNat ≤ cfg.lMax) : Waits cfg false (bytes.set 2 v) := by
  obtain ⟨hheader, -, -⟩ := h
  have hmin : cfg.lMin ≤ v.toNat := by
    obtain ⟨-, -, hmin, -, -⟩ := hheader
    omega
  refine .inr ⟨rfl, v.toNat, hheader.set_len hp hmin hmax, ?_⟩
  rw [List.length_set]
  omega

/-- A shorter legal LEN leaves it to the CRC of the shorter window (R75). -/
theorem FrameAtFront.set_len_shorter (hp : cfg.Relations) (h : FrameAtFront cfg bytes L) (hmin : cfg.lMin ≤ v.toNat)
    (hshort : v.toNat < L) :
    FrameAtFront cfg (bytes.set 2 v) v.toNat ∨
      FailsWith cfg false (bytes.set 2 v) .crc (crcScanStart cfg v.toNat) := by
  obtain ⟨hheader, hwindow, -⟩ := h
  have hmax : v.toNat ≤ cfg.lMax := by
    obtain ⟨-, -, -, hmax, -⟩ := hheader
    omega
  have hheader' := hheader.set_len hp hmin hmax
  have hwindow' : v.toNat + 3 ≤ (bytes.set 2 v).length := by
    rw [List.length_set]
    omega
  by_cases hcrc : (bytes.set 2 v)[v.toNat + 2]? = some (crc8 cfg (spanOf (bytes.set 2 v) v.toNat))
  · exact .inl ⟨hheader', hwindow', hcrc⟩
  · exact .inr ⟨rfl, v.toNat, hheader', hwindow', hcrc, rfl⟩

/-- A changed PAYLOAD or CRC8 byte fails the test of the CRC (R75). -/
theorem FrameAtFront.fails_crc (h : FrameAtFront cfg bytes L) (hpoly : cfg.poly.getLsbD 0 = true) (hi : 3 ≤ i)
    (hiL : i < L + 3) (hne : bytes[i]? ≠ some v) :
    FailsWith cfg false (bytes.set i v) .crc (crcScanStart cfg L) := by
  have hcrc := h.crc_mismatch hpoly hi hiL hne
  obtain ⟨hheader, hwindow, -⟩ := h
  exact ⟨rfl, L, hheader.set (by omega) (by omega), hwindow.trans List.length_set.ge, hcrc, rfl⟩

end

/-- Settles O21: by position, the changed byte decides which test fails, or that none does. -/
theorem oneByteCorruption : Obligations.OneByteCorruption := by
  intro s bytes L i v hl hwf hpoly hr hf hend hi hne hc
  have hp := Params.relations hwf
  obtain ⟨w, -, ha⟩ := hc.exists_answer hp
  have ht := exec_check_of_answers hc hp hl ha
  have discards {cause : SyncCause} {start : Nat} (hfails : FailsWith s.cfg false (bytes.set i v) cause start) :=
    discards_of_fails hc hp hl ht (hr ▸ hfails)
  have accepts {n : Nat} (hframe : FrameAtFront s.cfg (bytes.set i v) n) :=
    congrArg State.result (next_eq_of_answers hc hp hl ht (.accepts hr hframe))
  refine ⟨_, ht, ?head, ?addr, ?lenRange, ?lenLonger, ?lenShorter, ?payload⟩
  case head =>
    rintro rfl
    exact discards (hf.fails_head hne)
  case addr =>
    rintro rfl
    exact accepts (hf.set_addr)
  case lenRange =>
    rintro rfl hrange
    exact discards (hf.fails_len hrange)
  case lenLonger =>
    rintro rfl hlong hmax
    have hw := hf.waits_len hp hend hlong hmax
    exact congrArg State.result (next_eq_of_answers hc hp hl ht (.waits (hr ▸ hw)))
  case lenShorter =>
    rintro rfl hmin hshort
    exact (hf.set_len_shorter hp hmin hshort).symm.imp discards accepts
  case payload =>
    intro hi3
    exact discards (hf.fails_crc hpoly hi3 hi hne)

/-! ## The receive operations complete -/

/-- What an append or a read may bring: at least one byte, and no more than there is room for (R131, R136). -/
def Fits (s : State) (data : List Byte) : Prop :=
  1 ≤ data.length ∧ s.fill + data.length ≤ s.cfg.bufCap

/-- A DRAIN leaves no less room (R135). -/
theorem Receives.fits {s t : State} (hi : Sound s) (h : Receives s t) {data : List Byte} (hfits : Fits s data) :
    Fits t data := by
  obtain ⟨-, ⟨-, -, bytes, hc⟩, -⟩ := hi
  obtain ⟨bytes', hc', hsuffix⟩ := h.tail bytes hc
  have hcfg : t.cfg = s.cfg := by rw [h.frame]
  have hfill : t.fill ≤ s.fill := by
    rw [hc.1, hc'.1]
    exact hsuffix.length_le
  obtain ⟨h1, h2⟩ := hfits
  refine ⟨h1, ?_⟩
  rw [hcfg]
  omega

theorem appendBytes_completes {s : State} (hi : Sound s) {data : List Byte} (hfits : Fits s data) :
    ∃ t : State, appendBytes data s = .ok t := by
  obtain ⟨-, ⟨-, -, bytes, hc⟩, -⟩ := hi
  obtain ⟨h1, h2⟩ := hfits
  obtain ⟨m, he, -⟩ := appendBytes_ok hc h1 (hc.1 ▸ h2)
  exact ⟨_, he⟩

theorem receiveRead_completes {s : State} (hi : Sound s) {r : ReadResult}
    (hfits : ∀ data : List Byte, r = .data data → Fits s data) : ∃ t : State, receiveRead r s = .ok t := by
  cases r with
  | data data =>
    obtain ⟨u, hu⟩ := appendBytes_completes hi (hfits data rfl)
    obtain ⟨t, ht, -⟩ := drainUnder_receives (appendBytes_sound hi hu)
    exact ⟨t, by simp only [receiveRead, receiveData, hu, ht]⟩
  | wouldBlock => exact ⟨_, rfl⟩
  | eof => exact ⟨_, rfl⟩
  | err => exact ⟨_, rfl⟩

section
variable {s : State} (hi : Sound s) (hl : receiverLive s = true)
include hi hl

theorem exec_check_completes : ∃ t : State, exec .check s = .next t := by
  have hp := hi.relations
  obtain ⟨-, ⟨-, -, bytes, hc⟩, -⟩ := hi
  obtain ⟨v, -, ha⟩ := hc.exists_answer hp
  exact ⟨_, exec_check_of_answers hc hp hl ha⟩

theorem exec_apply_completes : ∃ t : State, exec .apply s = .next t := by
  obtain ⟨-, ⟨-, -, bytes, hc⟩, -⟩ := id hi.clearOutputs
  obtain ⟨o, t, -, ha, -⟩ := applyOnce_receives hi.clearOutputs hc
  exact ⟨_, by rw [exec_apply hl, ha]⟩

theorem exec_drain_completes : ∃ t : State, exec .drain s = .next t := by
  obtain ⟨t, ht, -⟩ := drainUnder_receives hi.clearOutputs
  exact ⟨_, by rw [exec_drain hl, ht]; rfl⟩

/-- The DRAIN that may be under way ends first, then the read runs (R136, R166). -/
theorem exec_rxEvent_completes {r : ReadResult} (hfits : ∀ data : List Byte, r = .data data → Fits s data) :
    ∃ t : State, exec (.rxEvent r) s = .next t := by
  obtain ⟨u, hu, hdrained, -⟩ := finishDrain_receives hi.clearOutputs
  obtain ⟨t, ht⟩ := receiveRead_completes (hdrained.keeps hi.clearOutputs) fun data hr =>
    hdrained.fits hi.clearOutputs (hfits data hr)
  exact ⟨_, by rw [exec_rxEvent hl, receiveEvent, hu]; simp only [ht]; rfl⟩

theorem exec_rxAppend_completes {data : List Byte} (hfits : Fits s data) :
    ∃ t : State, exec (.rxAppend data) s = .next t := by
  obtain ⟨u, hu, hdrained, -⟩ := finishDrain_receives hi.clearOutputs
  obtain ⟨t, ht⟩ := appendBytes_completes (hdrained.keeps hi.clearOutputs) (hdrained.fits hi.clearOutputs hfits)
  exact ⟨_, by rw [exec_rxAppend hl, hu]; simp only [ht]; rfl⟩

/-- The row FRAME is the read of its bytes (log 3). -/
theorem exec_frame_completes {addr len crc : Byte} {payload : List Byte}
    (hroom : s.fill + (payload.length + 4) ≤ s.cfg.bufCap) :
    ∃ t : State, exec (.frame addr len payload crc) s = .next t := by
  have hlen := length_frameBytes s.cfg.head addr len crc payload
  rw [exec_frame hl, ← exec_rxEvent hl]
  refine exec_rxEvent_completes hi hl fun data hdata => ?_
  obtain rfl := ReadResult.data.inj hdata
  exact ⟨by omega, hlen ▸ hroom⟩

end

/-- Settles O34: CHECK always answers, so APPLY and DRAIN complete, and what fits still fits behind a DRAIN. -/
theorem receiveOperationsComplete : Obligations.ReceiveOperationsComplete := by
  rintro s i hi hl (rfl | rfl | rfl | rfl | rfl | rfl | ⟨data, h1, h2, rfl | rfl⟩ |
    ⟨addr, len, crc, payload, hroom, rfl⟩)
  · exact exec_check_completes hi hl
  · exact exec_apply_completes hi hl
  · exact exec_drain_completes hi hl
  · exact exec_rxEvent_completes hi hl nofun
  · exact exec_rxEvent_completes hi hl nofun
  · exact exec_rxEvent_completes hi hl nofun
  · exact exec_rxAppend_completes hi hl ⟨h1, h2⟩
  · exact exec_rxEvent_completes hi hl fun _ hdata => ReadResult.data.inj hdata ▸ ⟨h1, h2⟩
  · exact exec_frame_completes hi hl hroom

end Sys2Proof.Machine
end

section
/-! The operations of RXE outside of a DRAIN: append, consume and deliver with their next states (R131 to R133), reads
with and without data (R136), APPLY by what CHECK answers (R119, R134), and where no operation has a step (R130). -/

namespace Sys2Proof.Machine

/-! ## Where operations have no step -/

/-- Every operation but RESET is one of the engine (R130, R161). -/
theorem exec_eq_onEngine {i : Instr} (hreset : isReset i = false) (s : State) :
    ∃ k : Host.Outcome State Fault Refusal, exec i s = onEngine s k := by
  cases i with
  | reset => cases hreset
  | _ => exact ⟨_, rfl⟩

theorem exec_eq_onReceiver {i : Instr} (hr : receiverOp i = true) (s : State) :
    ∃ k : Host.Outcome State Fault Refusal, exec i s = onReceiver s k := by
  cases i with
  | stats | message | crc8Bit | crc8Byte | crc8Block | pull | getStats | exitReq | join | free | reset => cases hr
  | _ => exact ⟨_, rfl⟩

section
variable {s : State} (k : Host.Outcome State Fault Refusal)

theorem onEngine_absent (h : s.constructed = false) : onEngine s k = .refused .engineAbsent := if_pos h

theorem onEngine_freed (hc : s.constructed = true) (h : s.runState = .freed) :
    onEngine s k = .refused .engineFreed := by
  rw [onEngine, if_neg ((Bool.not_eq_false _).mpr hc), if_pos h]

theorem onReceiver_joined (hc : s.constructed = true) (h : s.runState = .joined) :
    onReceiver s k = .fault .receiverReturned := by
  have hl : engineLive s = true := by simp [engineLive, hc, h]
  rw [onReceiver, onEngine_live hl, if_pos h]

theorem onReceiver_halted (hc : s.constructed = true) (hrun : s.runState = .running ∨ s.runState = .exitRequested)
    (h : s.rxHalted = true) : onReceiver s k = .fault .receiverHalted := by
  have hfreed : s.runState ≠ .freed := by rcases hrun with hr | hr <;> simp [hr]
  have hjoined : s.runState ≠ .joined := by rcases hrun with hr | hr <;> simp [hr]
  have hl : engineLive s = true := by simp [engineLive, hc, hfreed]
  rw [onReceiver, onEngine_live hl, if_neg hjoined, if_pos h]

end

/-- Settles O35: the gate of the engine stops every operation, that of the receiver those of RXE. -/
theorem operationsWithoutStepStop : Obligations.OperationsWithoutStepStop := by
  intro i s hreset
  obtain ⟨k, hk⟩ := exec_eq_onEngine hreset s
  refine ⟨fun hc => ?absent, fun hc hrun => ?freed, fun hc hrun hr => ?joined, fun hc hrun hhalted hr => ?halted⟩
  case absent => rw [hk, onEngine_absent k hc]
  case freed => rw [hk, onEngine_freed k hc hrun]
  case joined =>
    obtain ⟨k, hk⟩ := exec_eq_onReceiver hr s
    rw [hk, onReceiver_joined k hc hrun]
  case halted =>
    obtain ⟨k, hk⟩ := exec_eq_onReceiver hr s
    rw [hk, onReceiver_halted k hc hrun hhalted]

/-! ## The consumer where there is something to take -/

/-- Settles O37: a message that waits is what PULL takes first. -/
theorem pullTakesTheMessage : Obligations.PullTakesTheMessage :=
  fun _ hl hv => exec_pull_of_some hl (takeMessage_of_valid hv)

/-- Settles O40: GET_STATS only answers. -/
theorem statisticsAreASnapshot : Obligations.StatisticsAreASnapshot :=
  fun _ hl => ⟨⟨[], fun _ => rfl⟩, (exec_getStats hl).trans (answer_eq _ _)⟩

/-! ## Append, consume, deliver -/

theorem finishDrain_idle {s : State} (hd : s.draining = false) : finishDrain s = .ok s :=
  if_neg (Bool.eq_false_iff.mp hd)

theorem eq_of_appendBytes {data : List Byte} {s t : State} (h : appendBytes data s = .ok t) :
    t = { s with buf := s.buf.writeN s.fill data, fill := s.fill + data.length } := by
  unfold appendBytes at h
  split_ifs at h
  exact (Except.ok.inj h).symm

/-- CONSUME in its range (R132). -/
theorem consumeBytes_of_range {s : State} {m : Nat} (h1 : 1 ≤ m) (h2 : m ≤ s.fill) :
    consumeBytes m s = .ok { s with buf := s.buf.compact m s.fill, fill := s.fill - m } :=
  if_pos ⟨h1, h2⟩

/-- CONSUME elsewhere (R132). -/
theorem consumeBytes_error {s : State} {m : Nat} (h : m = 0 ∨ s.fill < m) :
    consumeBytes m s = .error .consumeRange :=
  if_neg (by omega)

section
variable {s : State} (hl : receiverLive s = true)
include hl

/-- RX_APPEND where no DRAIN is under way (R131). -/
theorem exec_rxAppend_idle (hd : s.draining = false) (data : List Byte) :
    exec (.rxAppend data) s = settle (withoutResult (appendBytes data s.clearOutputs)) := by
  rw [exec_rxAppend hl, finishDrain_idle (s := s.clearOutputs) hd]

theorem exec_consume_of_range {m : Nat} (h1 : 1 ≤ m) (h2 : m ≤ s.fill) :
    exec (.consume m) s = .next { s with
      buf := s.buf.compact m s.fill
      fill := s.fill - m
      result := .none
      cause := none
      wakes := 0 } := by
  rw [exec_consume hl, consumeBytes_of_range (s := s.clearOutputs) h1 h2]
  rfl

/-- DELIVER of a frame at the front (R133). -/
theorem exec_deliver_of_frame {bytes : List Byte} {L : Nat} {a : Byte} (hp : s.cfg.Relations) (hc : Contents s bytes)
    (hf : FrameAtFront s.cfg bytes L) (ha : bytes[1]? = some a) :
    exec (.deliver L) s = .next { s with
      msg := { addr := a, len := BitVec.ofNat 8 L, payload := payloadOf bytes L }
      msgValid := true
      result := .none
      cause := none
      wakes := 1 } := by
  have hprobe : s.cfg.minProbe ≤ bytes.length := hf.1.1
  obtain ⟨a', ha', hd⟩ := deliverFrame_ok (s := s.clearOutputs) hc hp hf
  obtain rfl := Option.some.inj (ha'.symm.trans ha)
  rw [exec_deliver hl, if_pos ((hc.frameAt_iff hp L hprobe).mpr hf), hd]
  rfl

end

/-- Settles O23: what is read before and behind the written bytes is what was there. -/
theorem appendWritesBehind : Obligations.AppendWritesBehind := by
  intro s bytes data hl hd hc
  refine ⟨fun h1 h2 => ?fits, fun hbad => ?stops⟩
  case fits =>
    obtain ⟨m, he, hm, -⟩ := appendBytes_ok (s := s.clearOutputs) hc h1 h2
    refine ⟨m, ?_, fun a ha => ?_, fun a ha => ?_⟩
    · rw [exec_rxAppend_idle hl hd, he]
      rfl
    · rw [hm, hc.2]
      rcases ha with hfront | hbehind
      · exact List.getElem?_append_left hfront
      · have hold : bytes.length ≤ a := (Nat.le_add_right _ _).trans hbehind
        exact (List.getElem?_eq_none (by rwa [List.length_append])).trans (List.getElem?_eq_none hold).symm
    · rw [hm, List.getElem?_append_right (Nat.le_add_right _ _), Nat.add_sub_cancel_left]
  case stops =>
    rw [exec_rxAppend_idle hl hd, appendBytes_error (s := s.clearOutputs) (hc.1 ▸ hbad)]
    rfl

/-- Settles O24: what is read after the compaction is what stood `m` bytes further. -/
theorem consumeMovesToTheFront : Obligations.ConsumeMovesToTheFront := by
  intro s bytes m hl hc
  rw [← hc.1]
  refine ⟨fun h1 h2 => ⟨_, exec_consume_of_range hl h1 h2, fun a ha => ?kept, fun a ha => ?gone⟩, fun hbad => ?stops⟩
  case kept => rw [Memory.read_compact, if_pos ha]
  case gone => rw [Memory.read_compact, if_neg (Nat.not_lt.mpr ha)]
  case stops =>
    rw [exec_consume hl, consumeBytes_error (s := s.clearOutputs) hbad]
    rfl

/-- Settles O25: a frame at the front is what DELIVER wants, and its fields are what it writes. -/
theorem deliverFillsTheSlot : Obligations.DeliverFillsTheSlot :=
  fun _ _ L _ hl hwf hc hf ha =>
    ⟨⟨[BitVec.ofNat 8 L], fun _ => rfl⟩, exec_deliver_of_frame hl (Params.relations hwf) hc hf ha⟩

/-! ## Reads -/

section
variable {s : State} (hl : receiverLive s = true) (hd : s.draining = false)
include hl hd

/-- RX_EVENT where no DRAIN is under way (R136). -/
theorem exec_rxEvent_idle (r : ReadResult) :
    exec (.rxEvent r) s = settle (withoutResult (receiveRead r s.clearOutputs)) := by
  rw [exec_rxEvent hl, receiveEvent, finishDrain_idle (s := s.clearOutputs) hd]

/-- A read of data is the append, then DRAIN (R136). -/
theorem exec_rxEvent_data_of_append {t : State} {data : List Byte} (h : exec (.rxAppend data) s = .next t) :
    exec (.rxEvent (.data data)) s = exec .drain t := by
  rw [exec_rxAppend_idle hl hd] at h
  obtain ⟨u, hu, rfl⟩ := withoutResult_ok (settle_next.mp h)
  have hdrain : exec .drain { u with result := .none } = settle (withoutResult (drainUnder u)) := by
    obtain rfl := eq_of_appendBytes hu
    exact exec_drain (by exact hl)
  rw [exec_rxEvent_idle hl hd, hdrain]
  simp only [receiveRead, receiveData, hu]

end

/-- Settles O32: an append completes on a live receiver only, and the row FRAME is the read of its bytes. -/
theorem readWithDataAppendsThenDrains : Obligations.ReadWithDataAppendsThenDrains := by
  refine ⟨fun s t data hd h => ?read, fun s t addr len crc payload hd h => ?frame⟩
  case read => exact exec_rxEvent_data_of_append (receiverLive_of_exec rfl h) hd h
  case frame =>
    have hl := receiverLive_of_exec rfl h
    exact ((exec_frame hl ..).trans (exec_rxEvent hl _).symm).trans (exec_rxEvent_data_of_append hl hd h)

/-- Settles O33: without data a read is nothing at all or the transport-fatal event. -/
theorem readWithoutDataIsIdleOrFatal : Obligations.ReadWithoutDataIsIdleOrFatal := by
  intro s hl hd
  refine ⟨exec_rxEvent_idle hl hd _, fun r hr => ?_⟩
  rcases hr with rfl | rfl <;> exact exec_rxEvent_idle hl hd _

/-! ## APPLY by what CHECK answers -/

/-- APPLY, from its body (R134, log 9). -/
theorem exec_apply_of_applyOnce {s t : State} {o : CheckOutcome} (hl : receiverLive s = true)
    (h : applyOnce s.clearOutputs = .ok (o, t)) :
    exec .apply s = .next { t with draining := s.draining && !drainStops o t } := by
  rw [exec_apply hl, h]

/-- Where the row of an outcome completes, APPLY answers that outcome (R119, R134, log 3). -/
theorem exec_apply_of_outcomeInstr {s t : State} {o : CheckOutcome} (hl : receiverLive s = true)
    (h : exec (outcomeInstr o) s = .next t) : exec .apply s = .next t := by
  rw [exec_outcomeInstr hl] at h
  obtain ⟨u, ha, rfl⟩ := applyAnswering_ok (settle_next.mp h)
  exact exec_apply_of_applyOnce hl ha

/-- Settles O26, by the row of the outcome that CHECK answers where it waits. -/
theorem applyWaitsAndChangesNothing : Obligations.ApplyWaitsAndChangesNothing := by
  intro s bytes hl hwf hc hw
  obtain ⟨hwaits, -⟩ := outcomesObligeTheCaller s bytes hl hwf hc
  exact exec_apply_of_outcomeInstr (o := .needMoreData) hl (hwaits hw)

/-- Settles O27, by the row of the outcome that CHECK answers where it accepts. -/
theorem applyAcceptsDeliversCountsConsumes : Obligations.ApplyAcceptsDeliversCountsConsumes := by
  intro s bytes L a hl hwf hc hr hf ha
  obtain ⟨-, haccepts, -⟩ := outcomesObligeTheCaller s bytes hl hwf hc
  obtain ⟨m, hexec, hm⟩ := haccepts L a hr hf ha
  exact ⟨_, exec_apply_of_outcomeInstr (o := .frameAccepted (L + 3)) hl hexec, ⟨List.length_drop.symm, hm⟩, rfl⟩

/-- Settles O28, by the row of the outcome that the error path answers. -/
theorem applyDiscardsCountsConsumes : Obligations.ApplyDiscardsCountsConsumes := by
  intro s bytes cause start hl hwf hc hf
  obtain ⟨-, -, hfails, -⟩ := outcomesObligeTheCaller s bytes hl hwf hc
  obtain ⟨o, flag, -, hres⟩ := hc.raiseSync start cause
  obtain ⟨n, rfl⟩ := hres.discards
  obtain ⟨m, hexec, hm⟩ := hfails cause start n flag hf hres
  exact ⟨_, n, exec_apply_of_outcomeInstr (o := .discardBytes n) hl hexec, hres, ⟨List.length_drop.symm, hm⟩, rfl⟩

/-! ## APPLY is CHECK, then what its outcome obliges to -/

theorem applyOnce_of_checkFrame {s u : State} {v : Verdict} (hv : checkFrame s.cfg s.resync s.buf s.fill = some v)
    (ha : actOn v.outcome (s.withVerdict v) = .ok u) : applyOnce s = .ok (v.outcome, u) := by
  rw [applyOnce, hv]
  simp only [ha]

/-- APPLY is CHECK, then the caller's action on its outcome (R119, R134). -/
theorem exec_apply_of_check {s t u : State} {o : CheckOutcome} (h : exec .check s = .next t)
    (ho : t.result = .outcome o) (ha : actOn o t = .ok u) :
    exec .apply s = .next { u with draining := s.draining && !drainStops o u } := by
  have hl := receiverLive_of_exec rfl h
  obtain ⟨v, hv, rfl⟩ := (exec_check_next_iff hl).mp h
  obtain rfl := Result.outcome.inj ho
  exact exec_apply_of_applyOnce hl (applyOnce_of_checkFrame (s := s.clearOutputs) hv ha)

/-- Where the outcome consumes, a DRAIN under way goes on exactly where bytes are left (R135, log 9). -/
theorem exec_apply_of_check_consumes {s t u : State} {o : CheckOutcome} (h : exec .check s = .next t)
    (ho : t.result = .outcome o) (hconsumes : o ≠ .needMoreData) (ha : actOn o t = .ok u) :
    exec .apply s = .next { u with draining := s.draining && decide (u.fill ≠ 0) } := by
  rw [exec_apply_of_check h ho ha, not_drainStops_of_consumes hconsumes]

/-- What an acceptance obliges to, where a frame stands at the front: DELIVER, the count, CONSUME (R134). -/
theorem acceptFrame_of_frame {t : State} {bytes : List Byte} {L : Nat} (hl : receiverLive t = true)
    (hp : t.cfg.Relations) (hc : Contents t bytes) (hf : FrameAtFront t.cfg bytes L) :
    ∃ v w : State, exec (.deliver L) t = .next v ∧
      exec (.consume (L + 3)) { v with bytesRead := (v.bytesRead + (L + 3)) % 2 ^ t.cfg.ctrW } = .next w ∧
      acceptFrame (L + 3) t = .ok { w with result := t.result, cause := t.cause, wakes := t.wakes + v.wakes } := by
  obtain ⟨a, ha, hd⟩ := deliverFrame_ok hc hp hf
  have hpos : 1 ≤ L + 3 := Nat.le_add_left 1 _
  have hwindow : L + 3 ≤ t.fill := hc.1 ▸ hf.2.1
  refine ⟨_, _, exec_deliver_of_frame hl hp hc hf ha, exec_consume_of_range (by exact hl) hpos hwindow, ?_⟩
  rw [acceptFrame, hp.overhead, Nat.add_sub_cancel, hd]
  exact consumeBytes_of_range hpos hwindow

/-- What a discard obliges to: the count, CONSUME (R134). -/
theorem discardFront_of_range {t : State} {m : Nat} (hl : receiverLive t = true) (h1 : 1 ≤ m) (h2 : m ≤ t.fill) :
    ∃ w : State, exec (.consume m) { t with bytesInvalid := (t.bytesInvalid + m) % 2 ^ t.cfg.ctrW } = .next w ∧
      w.wakes = 0 ∧ discardFront m t = .ok { w with result := t.result, cause := t.cause, wakes := t.wakes } :=
  ⟨_, exec_consume_of_range (by exact hl) h1 h2, rfl, consumeBytes_of_range h1 h2⟩

/-- Settles O47, by CHECK's outcome. -/
theorem applyIsCheckThenTheOutcome : Obligations.ApplyIsCheckThenTheOutcome := by
  intro s t o hi h ho
  have hp := hi.relations
  have hl := receiverLive_of_exec rfl h
  obtain ⟨-, ⟨-, -, bytes, hc⟩, -⟩ := hi
  obtain ⟨v, hanswer, rfl⟩ := (exec_check_iff_answers hc hp hl).mp h
  obtain rfl := Result.outcome.inj ho
  cases hanswer with
  | waits hw =>
    refine ⟨_, exec_apply_of_check h rfl rfl, rfl, rfl, fun _ => ?_, nofun, nofun⟩
    rw [drainStops_needMoreData, Bool.not_true, Bool.and_false]
  | accepts hr hf =>
    obtain ⟨v, w, hdeliver, hconsume, haccept⟩ := acceptFrame_of_frame (t := s.clearOutputs.withVerdict _) hl hp hc hf
    refine ⟨_, exec_apply_of_check_consumes h rfl nofun haccept, rfl, rfl, nofun, fun m hm => ?_, nofun⟩
    obtain rfl := CheckOutcome.frameAccepted.inj hm
    refine ⟨v, w, hdeliver, hconsume, ?_⟩
    rw [withVerdict_wakes, clearOutputs_wakes, Nat.zero_add]
  | fails hf hres =>
    obtain ⟨m, rfl⟩ := hres.discards
    obtain ⟨h1, h2⟩ := hf.discard_range hp hres
    obtain ⟨w, hconsume, hwakes, hdiscard⟩ :=
      discardFront_of_range (t := s.clearOutputs.withVerdict _) hl h1 (h2.trans hc.1.ge)
    refine ⟨_, exec_apply_of_check_consumes h rfl nofun hdiscard, rfl, rfl, nofun, nofun, fun m' hm => ?_⟩
    obtain rfl := CheckOutcome.discardBytes.inj hm
    refine ⟨w, hconsume, ?_⟩
    rw [hwakes]
    rfl

end Sys2Proof.Machine
end

section
/-! A DRAIN in parts (R135, R139, R166): under `ATOMICITY = drain` it is one APPLY and the DRAIN of what that leaves, and
it ends where CHECK waits; an arrival inside a DRAIN is one APPLY of that DRAIN, then the same arrival. -/

namespace Sys2Proof.Machine

/-! ## What one APPLY leaves for the rest of a DRAIN -/

theorem receives_of_applyOnce {s t : State} {o : CheckOutcome} (hi : Sound s) (h : applyOnce s = .ok (o, t)) :
    Receives s t := by
  obtain ⟨-, ⟨-, -, bytes, hc⟩, -⟩ := id hi
  obtain ⟨o', t', -, he, hr, -⟩ := applyOnce_receives hi hc
  obtain ⟨-, rfl⟩ := Prod.mk.inj (Except.ok.inj (he.symm.trans h))
  exact hr

theorem Receives.clearOutputs (s : State) : Receives s s.clearOutputs := .outputs s s.draining .none none 0

theorem Receives.withoutResult (s : State) : Receives s { s with result := .none } :=
  .outputs s s.draining .none s.cause s.wakes

theorem Receives.receiverLive_eq {s t : State} (h : Receives s t) : receiverLive t = receiverLive s := by
  rw [h.frame]
  rfl

/-- The steps of RXE leave the parameters as they are (R5). -/
theorem Receives.cfg_eq {s t : State} (h : Receives s t) : t.cfg = s.cfg := by
  rw [h.frame]

/-- APPLY on a sound state, with what its next state keeps (R134). -/
theorem receives_of_exec_apply {s u : State} (hi : Sound s) (h : exec .apply s = .next u) : Receives s u := by
  obtain ⟨o, w, ha, -, rfl⟩ := applyOnce_of_exec_apply (receiverLive_of_exec rfl h) h
  have hw := receives_of_applyOnce hi.clearOutputs ha
  exact ((Receives.clearOutputs s).trans hw).trans (.outputs w _ w.result w.cause w.wakes)

/-- When the loop of DRAIN stops (R135). -/
theorem drainStops_iff {o : CheckOutcome} {s : State} : drainStops o s = true ↔ o = .needMoreData ∨ s.fill = 0 := by
  rw [drainStops, Bool.or_eq_true, decide_eq_true_eq, decide_eq_true_eq]

/-- One operation's wake-up events come before another's (R164, log 15). -/
def State.addWakes (k : Nat) (t : State) : State := { t with wakes := k + t.wakes }

/-- The rest of a DRAIN is a DRAIN that begins here, but for the wake-up events before it (R135). -/
theorem drainAll_eq_map_drainAll (s : State) (d : Bool) :
    drainAll s = (drainAll { s with draining := d }.clearOutputs).map (State.addWakes s.wakes) := by
  have hs : s = ({ s with draining := d }.clearOutputs).retag s.draining s.result s.cause s.wakes := rfl
  rw [hs]
  exact drainAll_retag ..

/-! ## DRAIN under `ATOMICITY = drain` -/

section
variable {s : State} (hi : Sound s) (hl : receiverLive s = true) (hat : s.cfg.atomicity = .drain)
include hl hat

theorem exec_drain_atomic : exec .drain s = settle (withoutResult (drainAll s.clearOutputs)) := by
  rw [exec_drain hl, drainUnder, clearOutputs_cfg, hat]

include hi

/-- DRAIN ends, with a buffer on which CHECK waits (R135, R139). -/
theorem exec_drain_ends {bytes : List Byte} (hc : Contents s bytes) :
    ∃ (t : State) (rest : List Byte), exec .drain s = .next t ∧ Receives s t ∧ Contents t rest ∧
      Waits s.cfg t.resync rest ∧ t.draining = false ∧ t.result = .none := by
  obtain ⟨t, rest, ht, hr, hrest, hw, hd⟩ := drainAll_receives hi.clearOutputs (bytes := bytes) hc
  refine ⟨{ t with result := .none }, rest, ?_, ?_, hrest, hw, hd, rfl⟩
  · rw [exec_drain_atomic hl hat, ht]
    rfl
  · exact ((Receives.clearOutputs s).trans hr).trans (Receives.withoutResult t)

/-- Where its first APPLY ends the loop, DRAIN is that APPLY (R135). -/
theorem exec_drain_of_stops {u : State} (h : exec .apply s = .next u)
    (hstops : u.result = .outcome .needMoreData ∨ u.fill = 0) :
    exec .drain s = .next { u with draining := false, result := .none } := by
  obtain ⟨o, w, ha, hresult, rfl⟩ := applyOnce_of_exec_apply hl h
  have hstops : drainStops o w = true :=
    drainStops_iff.mpr (hstops.imp_left fun he => Result.outcome.inj (hresult.symm.trans he))
  rw [exec_drain_atomic hl hat, drainAll_unroll hi.clearOutputs ha, if_pos hstops]
  rfl

/-- Where the loop goes on, DRAIN is that APPLY and a DRAIN of what it leaves (R135). -/
theorem exec_drain_of_continues {u : State} (h : exec .apply s = .next u)
    (hresult : u.result ≠ .outcome .needMoreData) (hfill : u.fill ≠ 0) :
    ∃ v : State, exec .drain u = .next v ∧ exec .drain s = .next { v with wakes := u.wakes + v.wakes } := by
  have hu := receives_of_exec_apply hi h
  have hsound := hu.keeps hi
  obtain ⟨-, ⟨-, -, bytes, hc⟩, -⟩ := id hsound
  obtain ⟨x, -, hx, -⟩ := drainAll_receives hsound.clearOutputs (bytes := bytes) hc
  have hlu : receiverLive u = true := hu.receiverLive_eq.trans hl
  have hatu : u.cfg.atomicity = .drain := hu.cfg_eq ▸ hat
  refine ⟨{ x with result := .none }, by rw [exec_drain_atomic hlu hatu, hx]; rfl, ?_⟩
  obtain ⟨o, w, ha, ho, rfl⟩ := applyOnce_of_exec_apply hl h
  have hcontinues : ¬ drainStops o w = true := fun hstops =>
    (drainStops_iff.mp hstops).elim (fun he => hresult (he ▸ ho)) hfill
  rw [exec_drain_atomic hl hat, drainAll_unroll hi.clearOutputs ha, if_neg hcontinues, drainAll_eq_map_drainAll w, hx]
  rfl

end

/-- Settles O30: where DRAIN ends, and its loop unrolled once. -/
theorem drainRunsUntilCheckWaits : Obligations.DrainRunsUntilCheckWaits := by
  intro s bytes hi hl hat hc
  refine ⟨?ends, ?unrolled⟩
  case ends =>
    obtain ⟨t, rest, ht, hr, hrest, hw, hd, hresult⟩ := exec_drain_ends hi hl hat hc
    obtain ⟨rest', hrest', hsuffix⟩ := hr.tail bytes hc
    obtain rfl := hrest.unique hrest'
    obtain ⟨hmax, hprobe⟩ := hw.length_lt hi.relations
    rw [← hrest.1] at hmax hprobe
    refine ⟨t, rest, ht, hrest, hsuffix, hr.cfg_eq ▸ hw, hmax, hprobe, hr.account, ?_⟩
    have hframe := hr.frame
    rwa [hd, hresult] at hframe
  case unrolled =>
    obtain ⟨u, hu⟩ := exec_apply_completes hi hl
    exact ⟨u, hu, exec_drain_of_stops hi hl hat hu, exec_drain_of_continues hi hl hat hu⟩

/-! ## An answer with a changed next state -/

/-- The next state of a step changed, the stops left as they are. -/
def mapNext (f : State → State) : Host.Outcome State Fault Refusal → Host.Outcome State Fault Refusal
  | .next t => .next (f t)
  | .fault e => .fault e
  | .refused r => .refused r

theorem settle_map (f : State → State) (e : Except Fault State) : settle (e.map f) = mapNext f (settle e) := by
  cases e <;> rfl

/-- What a changed answer says of next states and faults. -/
theorem next_and_fault_of_mapNext {f : State → State} {x y : Host.Outcome State Fault Refusal} (h : x = mapNext f y) :
    (∀ v : State, y = .next v → x = .next (f v)) ∧ ∀ e : Fault, y = .fault e → x = .fault e := by
  refine ⟨fun v hv => ?_, fun e he => ?_⟩
  · rw [h, hv, mapNext]
  · rw [h, he, mapNext]

/-! ## What stands between an APPLY and the arrival -/

/-- The outputs of what comes after `u` inside a DRAIN: if that DRAIN has ended with `u`, its last outcome and cause
stand until another CHECK runs (log 9, log 15). -/
def State.after (u t : State) : State :=
  { t with
    result := if u.draining then t.result else u.result
    cause := if u.draining then t.cause else u.cause
    wakes := u.wakes + t.wakes }

/-- After a DRAIN that has ended with `u` nothing is left to finish (R135). -/
theorem finishDrain_map_after_of_ended {u : State} (h : u.draining = false) :
    (finishDrain u.clearOutputs).map u.after = .ok u := by
  have hu : u.after u.clearOutputs = u := by
    rw [State.after, h]
    rfl
  rw [finishDrain_idle (s := u.clearOutputs) h, Except.map, hu]

/-- In a DRAIN that goes on behind `u` the rest runs its own CHECK (R135). -/
theorem finishDrain_map_after_of_draining {u : State} (h : u.draining = true) :
    (finishDrain u.clearOutputs).map u.after = (drainAll u.clearOutputs).map (State.addWakes u.wakes) := by
  have hu : u.after = State.addWakes u.wakes := by
    funext t
    rw [State.after, h]
    rfl
  rw [finishDrain, clearOutputs_draining, if_pos h, hu]

/-- Finishing a DRAIN is one APPLY of it, then finishing what is left of it (R135, R166). -/
theorem finishDrain_eq_map_after {s u : State} (hi : Sound s) (hd : s.draining = true)
    (h : exec .apply s = .next u) : finishDrain s.clearOutputs = (finishDrain u.clearOutputs).map u.after := by
  obtain ⟨o, w, ha, -, rfl⟩ := applyOnce_of_exec_apply (receiverLive_of_exec rfl h) h
  rw [finishDrain, clearOutputs_draining, if_pos hd, drainAll_unroll hi.clearOutputs ha, hd, Bool.true_and]
  cases drainStops o w with
  | true => exact (finishDrain_map_after_of_ended (u := { w with draining := false }) rfl).symm
  | false =>
    refine (drainAll_eq_map_drainAll w true).trans ?_
    exact (finishDrain_map_after_of_draining (u := { w with draining := true }) rfl).symm

theorem appendBytes_after (u : State) (data : List Byte) (t : State) :
    appendBytes data (u.after t) = (appendBytes data t).map u.after := by
  unfold appendBytes
  by_cases h : 1 ≤ data.length ∧ t.fill + data.length ≤ t.cfg.bufCap
  · rw [if_pos h, if_pos (by exact h)]
    rfl
  · rw [if_neg h, if_neg (by exact h)]
    rfl

theorem raiseTransportFatal_after (u t : State) : raiseTransportFatal (u.after t) = u.after (raiseTransportFatal t) := by
  have hwakes : (if t.cfg.eofSetsExit then u.wakes + t.wakes + 1 else u.wakes + t.wakes) =
      u.wakes + (if t.cfg.eofSetsExit then t.wakes + 1 else t.wakes) := by
    cases t.cfg.eofSetsExit <;> rfl
  exact congrArg (fun n => { u.after t with rxHalted := true, wakes := n }) hwakes

/-- DRAIN runs a CHECK of its own, so of the outputs before it only the wake-up events stay (R135). -/
theorem drainUnder_after (u t : State) : drainUnder (u.after t) = (drainUnder t).map (State.addWakes u.wakes) := by
  have ht : u.after t = t.retag t.draining (u.after t).result (u.after t).cause u.wakes := rfl
  have hcfg : (u.after t).cfg = t.cfg := rfl
  rw [drainUnder, drainUnder, hcfg, ht]
  cases t.cfg.atomicity with
  | drain => exact drainAll_retag ..
  | iteration =>
    simp only [drainStep, applyOnce_retag]
    cases applyOnce t <;> rfl

/-- What comes after `u` inside a DRAIN and runs no CHECK itself shows the cause of that DRAIN's last one (log 9,
log 15). -/
def State.afterUnchecked (u t : State) : State :=
  { t with cause := if u.draining then t.cause else u.cause, wakes := u.wakes + t.wakes }

theorem withoutResult_map_after (u : State) (e : Except Fault State) :
    withoutResult (e.map u.after) = (withoutResult e).map u.afterUnchecked := by
  cases e <;> rfl

/-- A read that runs no CHECK, after a DRAIN (R136, R160). -/
theorem receiveRead_after_unchecked (u : State) {r : ReadResult} (hr : r = .wouldBlock ∨ r = .eof ∨ r = .err)
    (t : State) : withoutResult (receiveRead r (u.after t)) = (withoutResult (receiveRead r t)).map u.afterUnchecked := by
  rw [← withoutResult_map_after]
  congr 1
  rcases hr with rfl | rfl | rfl
  · rfl
  · exact congrArg Except.ok (raiseTransportFatal_after u t)
  · exact congrArg Except.ok (raiseTransportFatal_after u t)

/-- A read with data, after a DRAIN (R131, R136). -/
theorem receiveRead_after_data (u : State) (data : List Byte) (t : State) :
    withoutResult (receiveRead (.data data) (u.after t)) =
      (withoutResult (receiveRead (.data data) t)).map (State.addWakes u.wakes) := by
  simp only [receiveRead, receiveData, appendBytes_after]
  cases appendBytes data t with
  | error f => rfl
  | ok x =>
    simp only [Except.map, drainUnder_after]
    cases drainUnder x <;> rfl

/-! ## An arrival inside a DRAIN -/

section
variable {s u : State} (hi : Sound s) (hd : s.draining = true) (h : exec .apply s = .next u)
include hi h

/-- RXE has a step before and after an APPLY (R130). -/
theorem receiverLive_of_exec_apply : receiverLive s = true ∧ receiverLive u = true := by
  have hl := receiverLive_of_exec rfl h
  exact ⟨hl, (receives_of_exec_apply hi h).receiverLive_eq.trans hl⟩

include hd

/-- A read inside a DRAIN is the same read after one APPLY of that DRAIN, with what the read leaves of the outputs
(R136, R166). -/
theorem exec_rxEvent_eq_mapNext {r : ReadResult} {f : State → State}
    (hread : ∀ t : State, withoutResult (receiveRead r (u.after t)) = (withoutResult (receiveRead r t)).map f) :
    exec (.rxEvent r) s = mapNext f (exec (.rxEvent r) u) := by
  obtain ⟨hl, hlu⟩ := receiverLive_of_exec_apply hi h
  rw [exec_rxEvent hl, exec_rxEvent hlu, receiveEvent, receiveEvent, finishDrain_eq_map_after hi hd h]
  cases finishDrain u.clearOutputs with
  | error e => rfl
  | ok t => exact (congrArg settle (hread t)).trans (settle_map f _)

/-- The row FRAME is a read of its bytes (log 3). -/
theorem exec_frame_eq_mapNext (addr len crc : Byte) (payload : List Byte) :
    exec (.frame addr len payload crc) s =
      mapNext (State.addWakes u.wakes) (exec (.frame addr len payload crc) u) := by
  obtain ⟨hl, hlu⟩ := receiverLive_of_exec_apply hi h
  rw [exec_frame hl, exec_frame hlu, (receives_of_exec_apply hi h).cfg_eq, ← exec_rxEvent hl, ← exec_rxEvent hlu]
  exact exec_rxEvent_eq_mapNext hi hd h (receiveRead_after_data u _)

/-- An append inside a DRAIN is the same append after one APPLY of that DRAIN (R131, R166). -/
theorem exec_rxAppend_eq_mapNext (data : List Byte) :
    exec (.rxAppend data) s = mapNext u.afterUnchecked (exec (.rxAppend data) u) := by
  obtain ⟨hl, hlu⟩ := receiverLive_of_exec_apply hi h
  rw [exec_rxAppend hl, exec_rxAppend hlu, finishDrain_eq_map_after hi hd h]
  cases finishDrain u.clearOutputs with
  | error e => rfl
  | ok t =>
    simp only [Except.map]
    rw [appendBytes_after, withoutResult_map_after, settle_map]

end

/-- Settles O60: each kind of arrival, with what of the DRAIN's outputs it leaves. -/
theorem arrivalsFirstFinishTheDrain : Obligations.ArrivalsFirstFinishTheDrain := by
  intro s u i hi _ hd h
  refine ⟨fun hop => ?checked, fun hop => ?unchecked⟩
  case checked =>
    rcases hop with ⟨data, rfl⟩ | ⟨addr, len, crc, payload, rfl⟩
    · exact next_and_fault_of_mapNext (exec_rxEvent_eq_mapNext hi hd h (receiveRead_after_data u data))
    · exact next_and_fault_of_mapNext (exec_frame_eq_mapNext hi hd h addr len crc payload)
  case unchecked =>
    rcases hop with ⟨data, rfl⟩ | hread
    · exact next_and_fault_of_mapNext (exec_rxAppend_eq_mapNext hi hd h data)
    · obtain ⟨r, hr, rfl⟩ : ∃ r : ReadResult, (r = .wouldBlock ∨ r = .eof ∨ r = .err) ∧ i = .rxEvent r := by
        rcases hread with rfl | rfl | rfl
        · exact ⟨_, .inl rfl, rfl⟩
        · exact ⟨_, .inr (.inl rfl), rfl⟩
        · exact ⟨_, .inr (.inr rfl), rfl⟩
      exact next_and_fault_of_mapNext (exec_rxEvent_eq_mapNext hi hd h (receiveRead_after_unchecked u hr))

end Sys2Proof.Machine
end

section
/-! The law of conservation (R140): what each operation adds to the account of bytes. APPLY steps keep it, an append adds
its bytes, and what runs neither leaves `fill` and the two counters as they are. -/

namespace Sys2Proof.Machine

/-! ## The parts of the receive path -/

/-- The account takes on `n` bytes (R140). -/
def Brings (n : Nat) (s t : State) : Prop := accounted t = (accounted s + n) % 2 ^ s.cfg.ctrW

theorem accounted_mod (s : State) : accounted s % 2 ^ s.cfg.ctrW = accounted s := Nat.mod_mod _ _

theorem brings_zero_of_accounted_eq {s t : State} (h : accounted t = accounted s) : Brings 0 s t :=
  h.trans (accounted_mod s).symm

theorem accounted_congr {s t : State} (hcfg : t.cfg = s.cfg) (hread : t.bytesRead = s.bytesRead)
    (hinvalid : t.bytesInvalid = s.bytesInvalid) (hfill : t.fill = s.fill) : accounted t = accounted s := by
  rw [accounted, accounted, hcfg, hread, hinvalid, hfill]

theorem appendBytes_brings {data : List Byte} {s t : State} (h : appendBytes data s = .ok t) :
    Brings data.length s t := by
  obtain rfl := eq_of_appendBytes h
  simp only [Brings, accounted, Nat.mod_add_mod, Nat.add_assoc]

/-- DRAIN under either grain of atomicity keeps within the receive path (R38, R135). -/
theorem receives_of_drainUnder {s t : State} (hi : Sound s) (h : drainUnder s = .ok t) : Receives s t := by
  obtain ⟨t', he, hr⟩ := drainUnder_receives hi
  exact Except.ok.inj (he.symm.trans h) ▸ hr

theorem receives_of_finishDrain {s t : State} (hi : Sound s) (h : finishDrain s = .ok t) : Receives s t := by
  obtain ⟨t', he, hr, -⟩ := finishDrain_receives hi
  exact Except.ok.inj (he.symm.trans h) ▸ hr

/-- APPLY steps before and after change nothing of what is brought (R134, R135). -/
theorem Brings.of_receives {n : Nat} {s s' t t' : State} (h : Brings n s' t) (hs : Receives s s')
    (ht : accounted t' = accounted t) : Brings n s t' := by
  rw [Brings, ht, h, hs.account, hs.cfg_eq]

/-- How many bytes a read brings (R136). -/
theorem receiveRead_brings {r : ReadResult} {s t : State} (hi : Sound s) (h : receiveRead r s = .ok t) :
    Brings (arriving (.rxEvent r)) s t := by
  cases r with
  | data data =>
    simp only [receiveRead, receiveData] at h
    split at h
    · cases h
    · next ha =>
      have hdrain := receives_of_drainUnder (appendBytes_sound hi ha) h
      exact (appendBytes_brings ha).of_receives (.refl s) hdrain.account
  | wouldBlock | eof | err =>
    cases h
    exact brings_zero_of_accounted_eq rfl

theorem receiveEvent_brings {r : ReadResult} {s t : State} (hi : Sound s) (h : receiveEvent r s = .ok t) :
    Brings (arriving (.rxEvent r)) s t := by
  unfold receiveEvent at h
  split at h
  · cases h
  · next hd =>
    obtain ⟨u, hu, rfl⟩ := withoutResult_ok h
    exact (receiveRead_brings (finishDrain_sound hi hd) hu).of_receives (receives_of_finishDrain hi hd) rfl

/-! ## Operations of RXE that run no APPLY -/

theorem fill_eq_of_answer {s t : State} {r : Result} (h : answer s r = .next t) : t.fill = s.fill := by
  rw [eq_of_answer h]

theorem fill_eq_of_answerRead {α : Type} {s t : State} {x : Option α} {f : α → Result}
    (h : answerRead s x f = .next t) : t.fill = s.fill := by
  obtain ⟨r, rfl⟩ := eq_of_answerRead h
  rfl

theorem fill_eq_of_deliverFrame {L : Nat} {s t : State} (h : deliverFrame L s = .ok t) : t.fill = s.fill := by
  unfold deliverFrame at h
  split at h
  · cases h
  · split_ifs at h
    cases h
    rfl

/-- Of the operations of RXE only CONSUME and those that run an APPLY change `fill` (R115, R131 to R133). -/
theorem fill_eq_of_exec {i : Instr} {s t : State} (hr : receiverOp i = true) (ha : runsApply i = false)
    (hconsume : ∀ m : Nat, i ≠ .consume m) (h : exec i s = .next t) : t.fill = s.fill := by
  have hl := receiverLive_of_exec hr h
  cases i with
  | stats | message | crc8Bit | crc8Byte | crc8Block | pull | getStats | exitReq | join | free | reset => cases hr
  | frame | outcomeNeedMoreData | outcomeFrameAccepted | outcomeDiscardBytes | rxAppend | apply | drain | rxEvent =>
    cases ha
  | consume m => exact absurd rfl (hconsume m)
  | parseProbe => exact fill_eq_of_answer ((exec_parseProbe hl).symm.trans h)
  | syncGate => exact fill_eq_of_answer ((exec_syncGate hl).symm.trans h)
  | syncScan start => exact fill_eq_of_answerRead ((exec_syncScan hl start).symm.trans h)
  | check =>
    obtain ⟨v, -, rfl⟩ := (exec_check_next_iff hl).mp h
    rfl
  | syncResolve start cause =>
    obtain ⟨-, -, v, -, rfl⟩ := (exec_syncResolve_next_iff hl).mp h
    rfl
  | parseHead =>
    rw [exec_parseHead hl] at h
    split_ifs at h
    exact fill_eq_of_answerRead h
  | parseLen =>
    rw [exec_parseLen hl] at h
    split_ifs at h
    exact fill_eq_of_answerRead h
  | parseBounds L =>
    rw [exec_parseBounds hl] at h
    split_ifs at h
    exact fill_eq_of_answer h
  | parseFields L =>
    rw [exec_parseFields hl] at h
    split_ifs at h
    exact fill_eq_of_answerRead h
  | crc8Verify L =>
    rw [exec_crc8Verify hl] at h
    split_ifs at h
    exact fill_eq_of_answerRead h
  | deliver L =>
    rw [exec_deliver hl] at h
    split_ifs at h
    exact fill_eq_of_deliverFrame (s := s.clearOutputs) (settle_next.mp h)

/-! ## All operations -/

theorem receiverOp_of_runsApply {i : Instr} (ha : runsApply i = true) : receiverOp i = true := by
  cases i with
  | frame | outcomeNeedMoreData | outcomeFrameAccepted | outcomeDiscardBytes | rxAppend | apply | drain | rxEvent => rfl
  | _ => cases ha

/-- An APPLY, and so the row of its outcome, brings nothing (R134, log 3). -/
theorem exec_outcomeInstr_brings {o : CheckOutcome} {s t : State} (hi : Sound s) (hl : receiverLive s = true)
    (h : exec (outcomeInstr o) s = .next t) : Brings 0 s t :=
  brings_zero_of_accounted_eq (receives_of_exec_apply hi (exec_apply_of_outcomeInstr hl h)).account

/-- What runs an APPLY brings what arrives, and no more (R134 to R136). -/
theorem brings_of_runsApply {i : Instr} {s t : State} (hi : Sound s) (ha : runsApply i = true)
    (h : exec i s = .next t) : Brings (arriving i) s t := by
  have hl := receiverLive_of_exec (receiverOp_of_runsApply ha) h
  have hi' := hi.clearOutputs
  cases i with
  | apply => exact brings_zero_of_accounted_eq (receives_of_exec_apply hi h).account
  | outcomeNeedMoreData => exact exec_outcomeInstr_brings (o := .needMoreData) hi hl h
  | outcomeFrameAccepted n => exact exec_outcomeInstr_brings (o := .frameAccepted n) hi hl h
  | outcomeDiscardBytes n => exact exec_outcomeInstr_brings (o := .discardBytes n) hi hl h
  | drain =>
    obtain ⟨u, hu, rfl⟩ := withoutResult_ok (settle_next.mp ((exec_drain hl).symm.trans h))
    exact brings_zero_of_accounted_eq (receives_of_drainUnder hi' hu).account
  | rxEvent r =>
    exact receiveEvent_brings (s := s.clearOutputs) hi' (settle_next.mp ((exec_rxEvent hl r).symm.trans h))
  | frame addr len payload crc =>
    rw [exec_frame hl] at h
    have hframe := receiveEvent_brings (s := s.clearOutputs) hi' (settle_next.mp h)
    rwa [arriving, length_frameBytes] at hframe
  | rxAppend data =>
    rw [exec_rxAppend hl] at h
    split at h
    · cases h
    · next u hd =>
      obtain ⟨v, hv, rfl⟩ := withoutResult_ok (settle_next.mp h)
      have hu : Receives s u := (Receives.clearOutputs s).trans (receives_of_finishDrain hi' hd)
      exact (appendBytes_brings hv).of_receives hu rfl
  | _ => cases ha

/-- What runs no APPLY brings nothing. -/
theorem arriving_eq_zero {i : Instr} (ha : runsApply i = false) : arriving i = 0 := by
  cases i with
  | frame | rxAppend | rxEvent => cases ha
  | _ => rfl

/-- Settles O56: what runs an APPLY is an operation of RXE, and what runs none changes nothing of the account. -/
theorem everyByteIsAccountedFor : Obligations.EveryByteIsAccountedFor := by
  intro i s t hi hreset hconsume h
  obtain ⟨hothers, -, hcounters⟩ := agentsKeepToTheirState i s t hreset h
  cases ha : runsApply i with
  | true => exact brings_of_runsApply hi ha h
  | false =>
    obtain ⟨-, -, -, hcfg, -⟩ := nothingButResetGoesBack i s t hreset h
    obtain ⟨hread, hinvalid⟩ := hcounters ha
    have hfill : t.fill = s.fill := by
      cases hr : receiverOp i with
      | true => exact fill_eq_of_exec hr ha hconsume h
      | false =>
        obtain ⟨-, hfill, -⟩ := hothers hr
        exact hfill
    rw [arriving_eq_zero ha]
    exact brings_zero_of_accounted_eq (accounted_congr hcfg hread hinvalid hfill)

end Sys2Proof.Machine
end

section
/-! The lifecycle operations, each in its own state and outside of it (R169). -/

namespace Sys2Proof.Machine

section
variable {s : State} (hl : engineLive s = true)
include hl

/-- EXIT_REQ where it is enabled: the wake-up is raised (R169). -/
theorem exec_exitReq_of_running (hrun : s.runState = .running) :
    exec .exitReq s = .next { s.clearOutputs with runState := .exitRequested, wakes := 1 } := by
  rw [exec_exitReq hl, if_pos hrun]

theorem exec_exitReq_of_ne_running (hrun : s.runState ≠ .running) : exec .exitReq s = .refused .lifecycleOrder := by
  rw [exec_exitReq hl, if_neg hrun]

/-- JOIN with RXE between operations (R169). -/
theorem exec_join_of_idle (hrun : s.runState = .exitRequested) (hd : s.draining = false) :
    exec .join s = .next { s.clearOutputs with runState := .joined } := by
  rw [exec_join hl, if_pos hrun, if_neg (Bool.eq_false_iff.mp hd)]

/-- JOIN with a DRAIN under way (log 9). -/
theorem exec_join_of_draining (hrun : s.runState = .exitRequested) (hd : s.draining = true) :
    exec .join s = .refused .receiverBusy := by
  rw [exec_join hl, if_pos hrun, if_pos hd]

theorem exec_join_of_ne_exitRequested (hrun : s.runState ≠ .exitRequested) :
    exec .join s = .refused .lifecycleOrder := by
  rw [exec_join hl, if_neg hrun]

/-- FREE where it is enabled: the slot is released, its content stays (R169, log 7). -/
theorem exec_free_of_joined (hrun : s.runState = .joined) :
    exec .free s = .next { s.clearOutputs with runState := .freed, msgValid := false } := by
  rw [exec_free hl, if_pos hrun]

theorem exec_free_of_ne_joined (hrun : s.runState ≠ .joined) : exec .free s = .refused .lifecycleOrder := by
  rw [exec_free hl, if_neg hrun]

end

/-- Settles O42: on a live engine the state of the lifecycle alone decides each operation, and JOIN also asks for the end
of a DRAIN under way. -/
theorem lifecycleMovesInOrder : Obligations.LifecycleMovesInOrder := fun _ hl =>
  ⟨exec_exitReq_of_running hl, exec_exitReq_of_ne_running hl,
    exec_join_of_idle hl, exec_join_of_draining hl, exec_join_of_ne_exitRequested hl,
    exec_free_of_joined hl, exec_free_of_ne_joined hl⟩

end Sys2Proof.Machine
end

section
/-! Construction (R180, R161): what RESET answers for each choice of the environment. -/

namespace Sys2Proof.Machine

/-- RESET with a construction that succeeds: a new engine, of which the old state gives only the parameters and the
queue (R180). -/
theorem exec_reset_succeeds (s : State) (d : BitVec 32) (k : DescriptorKind) :
    exec (.reset d k .succeeds) s = .next { State.fresh s.cfg d k s.pending with result := .engine } :=
  rfl

/-- RESET with a construction that fails: no engine, and the queue stays (R161, log 11). -/
theorem exec_reset_fails (s : State) (d : BitVec 32) (k : DescriptorKind) :
    exec (.reset d k .fails) s =
      .next { State.fresh s.cfg d k s.pending with constructed := false, result := .noEngine } :=
  rfl

/-- Settles O43, by the environment's choice: RESET answers a fresh engine, whose elements have the stated values, or one
marked as not made. -/
theorem constructionMakesAFreshEngineOrNone : Obligations.ConstructionMakesAFreshEngineOrNone := by
  intro s d k
  constructor
  case left => exact ⟨_, exec_reset_succeeds s d k, rfl, rfl, rfl, rfl, rfl, rfl, rfl, rfl, rfl, rfl, rfl, rfl, rfl, rfl,
    rfl, rfl⟩
  case right => exact ⟨_, exec_reset_fails s d k, rfl, rfl, rfl⟩

end Sys2Proof.Machine
end
